-- ==== Sys2Proof/Word.lean ====
section
/-! DEFINITION. The bit patterns of the block: a register word, a selector, a byte and a byte string
(rules R8, R11, R13 of `00_scope.md`, R44 of `30_encoding.md`). Counts, sizes, lengths, indices and the
field values of views and headers are natural numbers (rule R10), not bit vectors. -/

namespace Sys2Proof

/-- A register word: 32 bits, bit 0 the least significant (R8 `REG_WIDTH`, R11). -/
abbrev Word := BitVec 32

/-- An operation selector: 16 bits, `sel[15:8]` the class and `sel[7:0]` the sub-operation (R44). -/
abbrev Sel := BitVec 16

/-- One byte of a byte string (R13). -/
abbrev Byte := BitVec 8

/-- A byte string: a finite sequence of bytes, its first byte at index 0 (R13). -/
abbrev Bytes := List Byte

end Sys2Proof
end

