-- ==== Sys2Proof/Config.lean ====
section
/-! DEFINITION. The open and decided parameters of one model instance (rules R9 and R18), as plain data.
The model is stated for EVERY value of this record: `exec` reads the record the state carries and no step
changes it (assumption 1). The fixed parameters of rule R8 are constants of `Machine/Params.lean`.
`N_DEVICES` is not here: it is the number of Frame Reassembler instances the state holds (assumption 2). -/

namespace Sys2Proof

/-- The device's power states, Status bits 6:5 (enumeration PWR_STATE of R65; R132). -/
inductive PwrState where
  | sleep | doze | armed | sensing
deriving DecidableEq, Repr

/-- The device's init states, Status bits 8:7 (enumeration INIT_STATE of R65; R132). -/
inductive InitState where
  | readyForOp | fwNeeded | dataNeeded | initError
deriving DecidableEq, Repr

/-- The commands of enumeration CMD other than NOP (R65); STATE.CMDVAL answers with one of them (R136). -/
inductive Command where
  | softReset | prepForRead | genTestPackets
deriving DecidableEq, Repr

/-- `RAW_COMPAT_ID_BYTES` (R9, D17): the Raw Data compatibility id is a `u32` or a `u8`. -/
inductive CompatIdBytes where
  | four | one
deriving DecidableEq, Repr

/-- `MAX_RAW_PAYLOAD_OTHER(t)`, one natural for each Raw data type other than FRAME (R9, D22). -/
structure RawMaxima where
  error : Nat
  vendorData : Nat
  hidReport : Nat
  getFeatures : Nat
deriving DecidableEq, Repr

/-- `MAX_WRITE_PAYLOAD(t)`, one natural for each Write data type (R9, D22). -/
structure WriteMaxima where
  fwLoad : Nat
  dataLoad : Nat
  feedback : Nat
  setFeatures : Nat
  getFeatures : Nat
  outputReport : Nat
  noDataUseDefaults : Nat
deriving DecidableEq, Repr

/-- The parameters of rule R9, fixed for the life of a model instance (R18, R153). `POWER_LEGAL` and
`CMD_LEGAL` are predicates on finite types, held as the list of the pairs each FORBIDS: the default
"always true" is the empty list, and every predicate is such a list. -/
structure Config where
  /-- `HOST_PROTOCOL_VER`, OPEN (D19). -/
  hostProtocolVer : Word
  /-- `HOST_COMPAT_ID`, OPEN (D19). -/
  hostCompatId : Word
  /-- `MAX_RAW_PAYLOAD_OTHER`, OPEN (D22). -/
  maxRawOther : RawMaxima
  /-- `MAX_WRITE_PAYLOAD`, OPEN (D22). -/
  maxWrite : WriteMaxima
  /-- `ALLOW_TRAILING_BYTES`, default false (D18). -/
  allowTrailingBytes : Bool
  /-- `RAW_COMPAT_ID_BYTES`, default 4 (D17). -/
  compatIdBytes : CompatIdBytes
  /-- `BUSY_GATES_VALIDATE`, default true (D33). -/
  busyGatesValidate : Bool
  /-- the pairs (current, target) for which `POWER_LEGAL` is false; default none (D33). -/
  powerForbidden : List (PwrState × PwrState)
  /-- the pairs (init state, command) for which `CMD_LEGAL` is false; default none (D34). -/
  cmdForbidden : List (InitState × Command)
  /-- `FREQ_COUNT`, default 3 (D6). -/
  freqCount : Nat
  /-- `BULK_COUNT`, default 5 (D6). -/
  bulkCount : Nat
deriving DecidableEq, Repr

end Sys2Proof
end

