-- ==== Sys2Proof/Machine/Params.lean ====
section
/-! DEFINITION. The fixed parameters of rule R8, and the configuration of the instance whose reset state is
`State.reset`. -/

namespace Sys2Proof.Machine

/-- `SYNC_BYTE` (R8): what the Status register's top byte must equal. -/
def syncByte : Nat := 0x5A
/-- `TIC_ID` (R8): the expected Identification value, ASCII "$TIC". -/
def ticId : Nat := 0x43495424
/-- `WINDOW_LO` (R8): first byte address of the data window. -/
def windowLo : Nat := 0x1000
/-- `WINDOW_HI` (R8): last byte address of the data window, the window limit. -/
def windowHi : Nat := 0x1FFFF
/-- `MAX_FRAME_BYTES` (R8): maximum bytes of a frame, and of a Raw Data payload of type FRAME. -/
def maxFrameBytes : Nat := 32768
/-- `MAX_FEEDBACK_BYTES` (R8). -/
def maxFeedbackBytes : Nat := 16384
/-- `RAW_HDR_BYTES` (R8). -/
def rawHdrBytes : Nat := 64
/-- `FB_HDR_BYTES` (R8). -/
def fbHdrBytes : Nat := 64
/-- `WR_HDR_BYTES` (R8). -/
def wrHdrBytes : Nat := 8
/-- `ERRP_BYTES` (R8). -/
def errpBytes : Nat := 12
/-- `PRIV_BYTES` (R8): the private block that ends the Raw Data header (R67, R68). -/
def privBytes : Nat := 32
/-- `SIZE_UNIT` (R8): bytes to one unit of the size fields of Data Size and Capabilities (R54, R55). -/
def sizeUnit : Nat := 64
/-- `MFPF_MIN` (R8). -/
def mfpfMin : Nat := 1
/-- `MFPF_MAX` (R8). -/
def mfpfMax : Nat := 31
/-- `MFI_MIN` (R8). -/
def mfiMin : Nat := 1
/-- `MFI_MAX` (R8). -/
def mfiMax : Nat := 31

/-- The configuration of the reset instance. Defaults are rule R9's; the OPEN parameters have no default, so
they are the values the spec's own vectors assume (`95_test_vectors.md`, Conventions). Assumption 1:
DESIGN CHOICE, unsafe; no statement rests on it, `State.resetWith` takes any configuration. -/
def resetConfig : Config where
  hostProtocolVer := 1
  hostCompatId := 0
  maxRawOther := { error := 32768, vendorData := 32768, hidReport := 32768, getFeatures := 32768 }
  maxWrite :=
    { fwLoad := 16384, dataLoad := 16384, feedback := 16384, setFeatures := 16384,
      getFeatures := 16384, outputReport := 16384, noDataUseDefaults := 16384 }
  allowTrailingBytes := false
  compatIdBytes := .four
  busyGatesValidate := true
  powerForbidden := []
  cmdForbidden := []
  freqCount := 3
  bulkCount := 5

/-- `N_DEVICES` of the reset instance: OPEN in rule R9, 2 as the vectors assume (assumption 2). -/
def resetDevices : Nat := 2

end Sys2Proof.Machine
end

