-- ==== Sys2Proof/Syntax.lean ====
section
/-! DEFINITION. The requests of the block (rules R43 to R48 of `30_encoding.md`): the names of register and
header fields, the view of each register kind, the header of each envelope, the request record, the
instruction type `Instr` with one constructor for each of the 41 operations of rule R45, and the
assembler's abstract syntax of rule R47. What a request means is in `Machine/`. -/

namespace Sys2Proof

/-- The 14 register kinds of the device's register map (R26, R50 to R63). -/
inductive RegKind where
  | status | frameChar | error | id | dataSize | caps | config | cmd | pwrCtl | vendorHw | hwRev | fwRev | compat
  | testCtl
deriving DecidableEq, Repr

/-- The non-reserved fields of the register layouts, in the order of the tables R50 to R63. -/
inductive RegField where
  | intStatus | intType | pwrState | initState | busy | syncByte
  | microframeSize | microframesPerFrame | microframeIndex | hidReport
  | invalidFw | invalidData | selfTestFailed | fatalError | vendorErrors
  | idValue
  | maxFrameSize | maxFeedbackSize
  | supported17mhz | supported30mhz | supported50mhz | supportedSingleIo | supportedDualIo | supportedQuadIo
  | bulkDataMaxWrite | readDelayTimerValue | maxTouchPoints
  | touchEnable | dhpm | bulkXferSize | freqSelect
  | commandCode
  | pwrStateCmd
  | vendorId | deviceId
  | hwRev
  | fwRev
  | minor | major | intfRev | kernelCompatVer
  | testCtrl
deriving DecidableEq, Repr

/-- The header fields of the envelopes and of the Error payload, in the order of the tables R67 to R71. -/
inductive HdrField where
  | dataType | payloadSize | bufferId | protocolVer | compatId | transactionId
  | feedbackCmdType | feedbackDataType | destOffset
  | writeDataType | writeDataLen
  | errorType | invalidFrameCharacteristics | microframeIndexInvalid
deriving DecidableEq, Repr

/-- The name of a field as an error or an `unrecognized` list reports it (R139, R140). -/
inductive Field where
  | reg (f : RegField)
  | hdr (f : HdrField)
deriving DecidableEq, Repr

/-- The eleven enumerations of rule R65. -/
inductive Enumeration where
  | intType | pwrState | initState | cmd | pwrCmd | bulk | freq | rawType | fbCmd | fbData | wrType
deriving DecidableEq, Repr

/-- The view of register kind STATUS (R50): one natural for each non-reserved field, from bit 0 upward. -/
structure StatusView where
  (intStatus : Nat)  (intType : Nat)  (pwrState : Nat)  (initState : Nat)  (busy : Nat)  (syncByte : Nat)
deriving DecidableEq, Repr

/-- The view of register kind FRAMECHAR (R51): one natural for each non-reserved field, from bit 0 upward. -/
structure FrameCharView where
  (microframeSize : Nat)  (microframesPerFrame : Nat)  (microframeIndex : Nat)  (hidReport : Nat)
deriving DecidableEq, Repr

/-- The view of register kind ERROR (R52): one natural for each non-reserved field, from bit 0 upward. -/
structure ErrorView where
  (invalidFw : Nat)  (invalidData : Nat)  (selfTestFailed : Nat)  (fatalError : Nat)  (vendorErrors : Nat)
deriving DecidableEq, Repr

/-- The view of register kind ID (R53): one natural for each non-reserved field, from bit 0 upward. -/
structure IdView where
  (idValue : Nat)
deriving DecidableEq, Repr

/-- The view of register kind DATASIZE (R54): one natural for each non-reserved field, from bit 0 upward. -/
structure DataSizeView where
  (maxFrameSize : Nat)  (maxFeedbackSize : Nat)
deriving DecidableEq, Repr

/-- The view of register kind CAPS (R55): one natural for each non-reserved field, from bit 0 upward. -/
structure CapsView where
  (supported17mhz : Nat)  (supported30mhz : Nat)  (supported50mhz : Nat)  (supportedSingleIo : Nat)
  (supportedDualIo : Nat)  (supportedQuadIo : Nat)  (bulkDataMaxWrite : Nat)
  (readDelayTimerValue : Nat)  (maxTouchPoints : Nat)
deriving DecidableEq, Repr

/-- The view of register kind CONFIG (R56): one natural for each non-reserved field, from bit 0 upward. -/
structure ConfigView where
  (touchEnable : Nat)  (dhpm : Nat)  (bulkXferSize : Nat)  (freqSelect : Nat)
deriving DecidableEq, Repr

/-- The view of register kind CMD (R57): one natural for each non-reserved field, from bit 0 upward. -/
structure CmdView where
  (commandCode : Nat)
deriving DecidableEq, Repr

/-- The view of register kind PWRCTL (R58): one natural for each non-reserved field, from bit 0 upward. -/
structure PwrCtlView where
  (pwrStateCmd : Nat)
deriving DecidableEq, Repr

/-- The view of register kind VENDORHW (R59): one natural for each non-reserved field, from bit 0 upward. -/
structure VendorHwView where
  (vendorId : Nat)  (deviceId : Nat)
deriving DecidableEq, Repr

/-- The view of register kind HWREV (R60): one natural for each non-reserved field, from bit 0 upward. -/
structure HwRevView where
  (hwRev : Nat)
deriving DecidableEq, Repr

/-- The view of register kind FWREV (R61): one natural for each non-reserved field, from bit 0 upward. -/
structure FwRevView where
  (fwRev : Nat)
deriving DecidableEq, Repr

/-- The view of register kind COMPAT (R62): one natural for each non-reserved field, from bit 0 upward. -/
structure CompatView where
  (minor : Nat)  (major : Nat)  (intfRev : Nat)  (kernelCompatVer : Nat)
deriving DecidableEq, Repr

/-- The view of register kind TESTCTL (R63): one natural for each non-reserved field, from bit 0 upward. -/
structure TestCtlView where
  (testCtrl : Nat)
deriving DecidableEq, Repr

/-- The operand `in.view` (R43): the port carries a view of every kind, and REG.ENCODE.K reads the one of
kind K; the others are ignored, as R43 says of every operand an operation does not use (assumption 3). -/
structure ViewPort where
  status : StatusView
  frameChar : FrameCharView
  error : ErrorView
  id : IdView
  dataSize : DataSizeView
  caps : CapsView
  config : ConfigView
  cmd : CmdView
  pwrCtl : PwrCtlView
  vendorHw : VendorHwView
  hwRev : HwRevView
  fwRev : FwRevView
  compat : CompatView
  testCtl : TestCtlView
deriving DecidableEq, Repr

/-- The header record of RAW.BUILD (R125): every non-reserved, non-length field of the layout R67, R68. -/
structure RawHeader where
  (dataType : Nat)  (bufferId : Nat)  (protocolVer : Nat)  (compatId : Nat)  (transactionId : Nat)
deriving DecidableEq, Repr

/-- The header record of FB.BUILD (R127), layout R69. -/
structure FbHeader where
  (feedbackCmdType : Nat)  (bufferId : Nat)  (protocolVer : Nat)  (feedbackDataType : Nat)  (destOffset : Nat)
deriving DecidableEq, Repr

/-- The header record of WR.BUILD (R129), layout R70. -/
structure WrHeader where
  (writeDataType : Nat)
deriving DecidableEq, Repr

/-- The header record of ERRP.BUILD (R131), layout R71; `err` is an Error register view. -/
structure ErrpHeader where
  (errorType : Nat)  (invalidFrameCharacteristics : Nat)  (microframeIndexInvalid : Nat)  (err : ErrorView)
deriving DecidableEq, Repr

/-- The operand `in.hdr` (R43), one record for each envelope (assumption 3). -/
structure HeaderPort where
  raw : RawHeader
  fb : FbHeader
  wr : WrHeader
  errp : ErrpHeader
deriving DecidableEq, Repr

/-- A request: the record of rule R43. Operands an operation does not use are ignored. -/
structure Request where
  /-- `in.sel` -/
  sel : Sel
  /-- `in.dev` -/
  dev : Nat
  /-- `in.word` -/
  word : Word
  /-- `in.word2` -/
  word2 : Word
  /-- `in.view` -/
  view : ViewPort
  /-- `in.hdr` -/
  hdr : HeaderPort
  /-- `in.bytes` -/
  bytes : Bytes
deriving DecidableEq, Repr

/-- The 41 operations of rule R45, each with the operands its own rule names. -/
inductive Instr where
  /-- REG.DECODE.STATUS -/
  | regDecodeStatus (word : Word)
  /-- REG.DECODE.FRAMECHAR -/
  | regDecodeFrameChar (word : Word)
  /-- REG.DECODE.ERROR -/
  | regDecodeError (word : Word)
  /-- REG.DECODE.ID -/
  | regDecodeId (word : Word)
  /-- REG.DECODE.DATASIZE -/
  | regDecodeDataSize (word : Word)
  /-- REG.DECODE.CAPS -/
  | regDecodeCaps (word : Word)
  /-- REG.DECODE.CONFIG -/
  | regDecodeConfig (word : Word)
  /-- REG.DECODE.CMD -/
  | regDecodeCmd (word : Word)
  /-- REG.DECODE.PWRCTL -/
  | regDecodePwrCtl (word : Word)
  /-- REG.DECODE.VENDORHW -/
  | regDecodeVendorHw (word : Word)
  /-- REG.DECODE.HWREV -/
  | regDecodeHwRev (word : Word)
  /-- REG.DECODE.FWREV -/
  | regDecodeFwRev (word : Word)
  /-- REG.DECODE.COMPAT -/
  | regDecodeCompat (word : Word)
  /-- REG.DECODE.TESTCTL -/
  | regDecodeTestCtl (word : Word)
  /-- REG.ENCODE.STATUS -/
  | regEncodeStatus (view : StatusView)
  /-- REG.ENCODE.FRAMECHAR -/
  | regEncodeFrameChar (view : FrameCharView)
  /-- REG.ENCODE.ERROR -/
  | regEncodeError (view : ErrorView)
  /-- REG.ENCODE.ID -/
  | regEncodeId (view : IdView)
  /-- REG.ENCODE.DATASIZE -/
  | regEncodeDataSize (view : DataSizeView)
  /-- REG.ENCODE.CAPS -/
  | regEncodeCaps (view : CapsView)
  /-- REG.ENCODE.CONFIG -/
  | regEncodeConfig (view : ConfigView)
  /-- REG.ENCODE.CMD -/
  | regEncodeCmd (view : CmdView)
  /-- REG.ENCODE.PWRCTL -/
  | regEncodePwrCtl (view : PwrCtlView)
  /-- REG.ENCODE.VENDORHW -/
  | regEncodeVendorHw (view : VendorHwView)
  /-- REG.ENCODE.HWREV -/
  | regEncodeHwRev (view : HwRevView)
  /-- REG.ENCODE.FWREV -/
  | regEncodeFwRev (view : FwRevView)
  /-- REG.ENCODE.COMPAT -/
  | regEncodeCompat (view : CompatView)
  /-- REG.ENCODE.TESTCTL -/
  | regEncodeTestCtl (view : TestCtlView)
  /-- FRAME.PUSH: instance, Frame Characteristics snapshot, the micro-frame's data -/
  | framePush (dev : Nat) (fc : Word) (data : Bytes)
  /-- FRAME.RESET -/
  | frameReset (dev : Nat)
  /-- RAW.PARSE -/
  | rawParse (bytes : Bytes)
  /-- RAW.BUILD -/
  | rawBuild (hdr : RawHeader) (payload : Bytes)
  /-- FB.PARSE -/
  | fbParse (bytes : Bytes)
  /-- FB.BUILD -/
  | fbBuild (hdr : FbHeader) (payload : Bytes)
  /-- WR.PARSE -/
  | wrParse (bytes : Bytes)
  /-- WR.BUILD -/
  | wrBuild (hdr : WrHeader) (payload : Bytes)
  /-- ERRP.PARSE -/
  | errpParse (bytes : Bytes)
  /-- ERRP.BUILD -/
  | errpBuild (hdr : ErrpHeader)
  /-- STATE.CLASSIFY: Status snapshot -/
  | stateClassify (status : Word)
  /-- STATE.PWRVAL: Status snapshot, requested Power Management Control word -/
  | statePwrval (status : Word) (request : Word)
  /-- STATE.CMDVAL: Status snapshot, requested Command word -/
  | stateCmdval (status : Word) (request : Word)
deriving DecidableEq, Repr

/-! ## The assembler's abstract syntax (R47)

The characters of a line (blanks, commas, braces, the digits of a number) are read away (assumption 10). -/

/-- A number, or the name of an enumeration member standing for its value (R47, last sentence). -/
inductive NumExpr where
  | lit (n : Nat)
  | member (name : String)
deriving DecidableEq, Repr

/-- A byte-string operand: a list of bytes, `zeros(n)`, `seq(n)`, or a name bound earlier (R47). -/
inductive BytesExpr where
  | lit (bs : List Nat)
  | zeros (n : Nat)
  | seq (n : Nat)
  | named (x : String)
deriving DecidableEq, Repr

/-- A view or header operand, name by name; `err` is ERRP.BUILD's nested Error view (R47). -/
structure RecordExpr where
  fields : List (String × NumExpr)
  err : Option (List (String × NumExpr))
deriving DecidableEq, Repr

/-- One operand of a line (R47). -/
inductive Operand where
  | num (n : Nat)
  | record (r : RecordExpr)
  | bytes (b : BytesExpr)
deriving DecidableEq, Repr

/-- One line of a program: an optional `name :=`, the mnemonic, the operands (R47). -/
structure Line where
  bind : Option String
  mnemonic : String
  operands : List Operand
deriving DecidableEq, Repr

/-- Why a line is not a request: the syntax errors of rule R47. -/
inductive SyntaxError where
  /-- the mnemonic is none of rule R45's and not RAW.BUILDFRAME -/
  | unknownMnemonic
  /-- the operands are not, in number and shape, those of the mnemonic's form -/
  | operandForm
  /-- a record leaves a field out: "a missing field is a syntax error, not zero" -/
  | missingField (name : String)
  /-- a record names something that is no field of its kind -/
  | unknownField (name : String)
  /-- a record names a field twice -/
  | duplicateField (name : String)
  /-- a member name that the field's enumeration does not have -/
  | unknownMember (name : String)
  /-- a word operand of 2^32 or more -/
  | wordTooWide (n : Nat)
  /-- a byte of 256 or more -/
  | byteTooWide (n : Nat)
  /-- a name that no earlier line bound to a result of the kind asked for -/
  | unboundName (name : String)
deriving DecidableEq, Repr

end Sys2Proof
end

