-- ==== Sys2Proof/Machine/Response.lean ====
section
/-! DEFINITION. The responses of the block: every request is answered by `Ok(result)` or `Err(code, info)`
(R15, R43). The results of each operation, the error taxonomy of R139 and the outcomes of the two
validations. Numeric codes are in `Machine/Flags.lean` (R139 lets a model name a code). -/

namespace Sys2Proof

/-- The reasons of `ReassemblyError` (R110, R139). -/
inductive ReassemblyReason where
  | invalidCharacteristics | outOfOrder | mfpfMismatch | oversize | dataLengthMismatch
  | sizeMismatch | hidFlagMismatch
deriving DecidableEq, Repr

/-- The error responses of R139 with the info each records. -/
inductive Err where
  /-- a field value outside its width or its encode range -/
  | fieldOutOfRange (field : Field)
  /-- a class 0x01 or 0x02 selector whose offset, `sel[7:0]`, names no register -/
  | unknownRegister (offset : Byte)
  /-- fewer bytes than the fixed header -/
  | truncatedHeader (had need : Nat)
  /-- fewer payload bytes than the header declares -/
  | truncatedPayload (had need : Nat)
  /-- more bytes than the header declares -/
  | lengthMismatch (had declared : Nat)
  /-- the payload is longer than the maximum for its envelope and type -/
  | payloadTooLarge (len max : Nat)
  /-- the destination lies outside the data window -/
  | offsetOutOfRange (offset len : Nat)
  /-- a version field differs from the host's; the compatibility id is recorded for RAW only -/
  | versionIncompatible (protocolVer : Nat) (compatId : Option Nat)
  /-- a micro-frame violates the frame being collected or is malformed -/
  | reassemblyError (reason : ReassemblyReason)
  /-- an illegal selector, or a FRAME request to an instance that does not exist -/
  | unknownOperation (sel : Sel)
deriving DecidableEq, Repr

/-- What RAW.PARSE reads of the header (R124): reserved bytes as they stand. -/
structure RawParsed where
  dataType : Nat
  payloadSize : Nat
  bufferId : Nat
  protocolVer : Nat
  compatId : Nat
  reserved : Bytes
  transactionId : Nat
  privReserved : Bytes
deriving DecidableEq, Repr

/-- What FB.PARSE reads of the header (R126). -/
structure FbParsed where
  feedbackCmdType : Nat
  payloadSize : Nat
  bufferId : Nat
  protocolVer : Nat
  feedbackDataType : Nat
  destOffset : Nat
  reserved : Bytes
deriving DecidableEq, Repr

/-- What WR.PARSE reads of the header (R128). -/
structure WrParsed where
  writeDataType : Nat
  writeDataLen : Nat
deriving DecidableEq, Repr

/-- What ERRP.PARSE reads (R130): the raw words beside the decoded flags and the Error view. -/
structure ErrpParsed where
  errorType : Nat
  reserved : Bytes
  fwWord : Word
  invalidFrameCharacteristics : Nat
  microframeIndexInvalid : Nat
  errRaw : Word
  err : ErrorView
deriving DecidableEq, Repr

/-- The interrupt classes of STATE.CLASSIFY (R134, conflict C6). -/
inductive IntClass where
  | dataAvailable | resetOccurred | errorOccurred | vendorData | getFeaturesAvailable
  | unrecognized (t : Nat)
deriving DecidableEq, Repr

/-- The result of STATE.CLASSIFY (R134). -/
structure Classification where
  intClass : IntClass
  pending : Nat
  power : PwrState
  init : InitState
  busy : Nat
  syncMismatch : Bool
deriving DecidableEq, Repr

/-- The reasons of `Invalid` (R140). -/
inductive InvalidReason where
  | syncMismatch | busy | illegalTransition
deriving DecidableEq, Repr

/-- What STATE.PWRVAL accepts: no change, or a target power state (R135). -/
inductive PwrTarget where
  | noChange
  | state (p : PwrState)
deriving DecidableEq, Repr

/-- The outcome of STATE.PWRVAL (R133, R135). -/
inductive PwrOutcome where
  | accepted (target : PwrTarget) (unrecognized : Bool) (current : PwrState)
  | invalid (reason : InvalidReason)
deriving DecidableEq, Repr

/-- What STATE.CMDVAL accepts: no operation, or a command (R136). -/
inductive CmdTarget where
  | noOp
  | command (c : Command)
deriving DecidableEq, Repr

/-- The outcome of STATE.CMDVAL (R133, R136). -/
inductive CmdOutcome where
  | accepted (target : CmdTarget) (unrecognized : Bool)
  | invalid (reason : InvalidReason)
deriving DecidableEq, Repr

/-- The results an `Ok` response carries, one constructor for each shape. A REG.DECODE result is the view,
the `unrecognized` list and the kind's own conditions or derived byte counts (R77, R82 to R95). -/
inductive Result where
  | status (view : StatusView) (unrecognized : List Field) (syncMismatch : Bool)
  | frameChar (view : FrameCharView) (unrecognized : List Field)
  | error (view : ErrorView) (unrecognized : List Field)
  | id (view : IdView) (unrecognized : List Field) (idMismatch : Bool)
  | dataSize (view : DataSizeView) (unrecognized : List Field) (maxFrameBytes maxFeedbackBytes : Nat)
  | caps (view : CapsView) (unrecognized : List Field) (bulkDataMaxWriteBytes : Nat)
  | config (view : ConfigView) (unrecognized : List Field)
  | cmd (view : CmdView) (unrecognized : List Field)
  | pwrCtl (view : PwrCtlView) (unrecognized : List Field)
  | vendorHw (view : VendorHwView) (unrecognized : List Field)
  | hwRev (view : HwRevView) (unrecognized : List Field)
  | fwRev (view : FwRevView) (unrecognized : List Field)
  | compat (view : CompatView) (unrecognized : List Field)
  | testCtl (view : TestCtlView) (unrecognized : List Field)
  /-- REG.ENCODE.*: the 32-bit word (R78, R81) -/
  | word (w : Word)
  /-- FRAME.PUSH: accepted, the frame is not yet complete (R110) -/
  | collecting
  /-- FRAME.PUSH: the whole frame and its HID/raw flag (R110, R116) -/
  | complete (bytes : Bytes) (hid : Nat)
  /-- FRAME.PUSH: discarded while Faulted (R110, R118) -/
  | dropped
  /-- FRAME.RESET (R119) -/
  | resetDone
  | rawParsed (hdr : RawParsed) (payload : Bytes) (unrecognized : List Field)
  | fbParsed (hdr : FbParsed) (payload : Bytes) (unrecognized : List Field)
  | wrParsed (hdr : WrParsed) (payload : Bytes) (unrecognized : List Field)
  | errpParsed (hdr : ErrpParsed)
  /-- *.BUILD: the envelope's bytes (R122, R131) -/
  | built (bytes : Bytes)
  | classified (c : Classification)
  | pwrValidated (o : PwrOutcome)
  | cmdValidated (o : CmdOutcome)
deriving DecidableEq, Repr

/-- One response (R15). -/
inductive Response where
  | ok (r : Result)
  | err (e : Err)
deriving DecidableEq, Repr

end Sys2Proof
end

