-- ==== Sys2Proof/Machine/Operands.lean ====
section
/-! DEFINITION. The operand forms: bit slices (R11, R73), the layout of every register (R49 to R63) and
envelope (R66 to R71), the enumerations (R65), and the views read from a word (R77) or listed for encoding
(R78). Tables only; what is done with them is in `Machine/Flags.lean` and `Machine/Ops.lean`. -/

namespace Sys2Proof.Machine

/-- `w[hi:lo]` (R11): the natural number `(w >> lo) mod 2^(hi-lo+1)`. -/
def bits (w : Word) (hi lo : Nat) : Nat := (w.toNat >>> lo) % 2 ^ (hi - lo + 1)

/-! ## Register layouts -/

/-- The byte offset of each register kind (R26, R50 to R63), which is its sub-operation (R44). -/
def offsetOf : RegKind → Nat
  | .status => 0x00
  | .frameChar => 0x04
  | .error => 0x08
  | .id => 0x10
  | .dataSize => 0x14
  | .caps => 0x18
  | .config => 0x1C
  | .cmd => 0x20
  | .pwrCtl => 0x24
  | .vendorHw => 0x28
  | .hwRev => 0x2C
  | .fwRev => 0x30
  | .compat => 0x34
  | .testCtl => 0x40

/-- The register kind at a byte offset; every other offset names no register (R46, R64). -/
def kindAt : Nat → Option RegKind
  | 0x00 => some .status
  | 0x04 => some .frameChar
  | 0x08 => some .error
  | 0x10 => some .id
  | 0x14 => some .dataSize
  | 0x18 => some .caps
  | 0x1C => some .config
  | 0x20 => some .cmd
  | 0x24 => some .pwrCtl
  | 0x28 => some .vendorHw
  | 0x2C => some .hwRev
  | 0x30 => some .fwRev
  | 0x34 => some .compat
  | 0x40 => some .testCtl
  | _ => none

/-- The most significant bit of each field (R50 to R63). -/
def fieldHi : RegField → Nat
  | .intStatus => 0 | .intType => 4 | .pwrState => 6 | .initState => 8 | .busy => 9 | .syncByte => 31
  | .microframeSize => 17 | .microframesPerFrame => 22 | .microframeIndex => 27 | .hidReport => 28
  | .invalidFw => 0 | .invalidData => 1 | .selfTestFailed => 2 | .fatalError => 15 | .vendorErrors => 31
  | .idValue => 31
  | .maxFrameSize => 11 | .maxFeedbackSize => 19
  | .supported17mhz => 1 | .supported30mhz => 2 | .supported50mhz => 3 | .supportedSingleIo => 8
  | .supportedDualIo => 9 | .supportedQuadIo => 10 | .bulkDataMaxWrite => 16
  | .readDelayTimerValue => 19 | .maxTouchPoints => 31
  | .touchEnable => 0 | .dhpm => 1 | .bulkXferSize => 5 | .freqSelect => 8
  | .commandCode => 7
  | .pwrStateCmd => 2
  | .vendorId => 15 | .deviceId => 31
  | .hwRev => 31
  | .fwRev => 31
  | .minor => 7 | .major => 15 | .intfRev => 23 | .kernelCompatVer => 31
  | .testCtrl => 31

/-- The least significant bit of each field (R50 to R63). -/
def fieldLo : RegField → Nat
  | .intStatus => 0 | .intType => 1 | .pwrState => 5 | .initState => 7 | .busy => 9 | .syncByte => 24
  | .microframeSize => 0 | .microframesPerFrame => 18 | .microframeIndex => 23 | .hidReport => 28
  | .invalidFw => 0 | .invalidData => 1 | .selfTestFailed => 2 | .fatalError => 15 | .vendorErrors => 16
  | .idValue => 0
  | .maxFrameSize => 0 | .maxFeedbackSize => 12
  | .supported17mhz => 1 | .supported30mhz => 2 | .supported50mhz => 3 | .supportedSingleIo => 8
  | .supportedDualIo => 9 | .supportedQuadIo => 10 | .bulkDataMaxWrite => 11
  | .readDelayTimerValue => 17 | .maxTouchPoints => 24
  | .touchEnable => 0 | .dhpm => 1 | .bulkXferSize => 2 | .freqSelect => 6
  | .commandCode => 0
  | .pwrStateCmd => 0
  | .vendorId => 0 | .deviceId => 16
  | .hwRev => 0
  | .fwRev => 0
  | .minor => 0 | .major => 8 | .intfRev => 16 | .kernelCompatVer => 24
  | .testCtrl => 0

/-- The width of a field in bits. -/
def fieldWidth (f : RegField) : Nat := fieldHi f - fieldLo f + 1

/-- The non-reserved fields of each kind in increasing bit order (R49, D37). -/
def fieldsOf : RegKind → List RegField
  | .status => [.intStatus, .intType, .pwrState, .initState, .busy, .syncByte]
  | .frameChar => [.microframeSize, .microframesPerFrame, .microframeIndex, .hidReport]
  | .error => [.invalidFw, .invalidData, .selfTestFailed, .fatalError, .vendorErrors]
  | .id => [.idValue]
  | .dataSize => [.maxFrameSize, .maxFeedbackSize]
  | .caps => [.supported17mhz, .supported30mhz, .supported50mhz, .supportedSingleIo,
      .supportedDualIo, .supportedQuadIo, .bulkDataMaxWrite, .readDelayTimerValue, .maxTouchPoints]
  | .config => [.touchEnable, .dhpm, .bulkXferSize, .freqSelect]
  | .cmd => [.commandCode]
  | .pwrCtl => [.pwrStateCmd]
  | .vendorHw => [.vendorId, .deviceId]
  | .hwRev => [.hwRev]
  | .fwRev => [.fwRev]
  | .compat => [.minor, .major, .intfRev, .kernelCompatVer]
  | .testCtl => [.testCtrl]

/-- The reserved mask of each kind: a 1 in every reserved bit (R49 to R63). -/
def reservedMask : RegKind → Word
  | .status => 0x00FFFC00
  | .frameChar => 0xE0000000
  | .error => 0x00007FF8
  | .id => 0x00000000
  | .dataSize => 0xFFF00000
  | .caps => 0x00F000F1
  | .config => 0xFFFFFE00
  | .cmd => 0xFFFFFF00
  | .pwrCtl => 0xFFFFFFF8
  | .vendorHw => 0x00000000
  | .hwRev => 0x00000000
  | .fwRev => 0x00000000
  | .compat => 0x00000000
  | .testCtl => 0x00000000

/-- Field extraction (R73): the bit slice, zero-extended. -/
def readField (w : Word) (f : RegField) : Nat := bits w (fieldHi f) (fieldLo f)

/-! ## Views

`<K>Of get` is the view whose field `f` is `get f`; `<K>Entries v` lists the fields of `v` with their values in
increasing bit order. Decoding takes the first with `readField w` (R77), encoding checks and packs the second
(R78). -/

/-- The STATUS view with the values of `get`. -/
def statusOf (get : RegField → Nat) : StatusView where
  intStatus := get .intStatus
  intType := get .intType
  pwrState := get .pwrState
  initState := get .initState
  busy := get .busy
  syncByte := get .syncByte

/-- The STATUS view field by field, in bit order. -/
def statusEntries (v : StatusView) : List (RegField × Nat) :=
  [(.intStatus, v.intStatus),
   (.intType, v.intType),
   (.pwrState, v.pwrState),
   (.initState, v.initState),
   (.busy, v.busy),
   (.syncByte, v.syncByte)]

/-- The FRAMECHAR view with the values of `get`. -/
def frameCharOf (get : RegField → Nat) : FrameCharView where
  microframeSize := get .microframeSize
  microframesPerFrame := get .microframesPerFrame
  microframeIndex := get .microframeIndex
  hidReport := get .hidReport

/-- The FRAMECHAR view field by field, in bit order. -/
def frameCharEntries (v : FrameCharView) : List (RegField × Nat) :=
  [(.microframeSize, v.microframeSize),
   (.microframesPerFrame, v.microframesPerFrame),
   (.microframeIndex, v.microframeIndex),
   (.hidReport, v.hidReport)]

/-- The ERROR view with the values of `get`. -/
def errorOf (get : RegField → Nat) : ErrorView where
  invalidFw := get .invalidFw
  invalidData := get .invalidData
  selfTestFailed := get .selfTestFailed
  fatalError := get .fatalError
  vendorErrors := get .vendorErrors

/-- The ERROR view field by field, in bit order. -/
def errorEntries (v : ErrorView) : List (RegField × Nat) :=
  [(.invalidFw, v.invalidFw),
   (.invalidData, v.invalidData),
   (.selfTestFailed, v.selfTestFailed),
   (.fatalError, v.fatalError),
   (.vendorErrors, v.vendorErrors)]

/-- The ID view with the values of `get`. -/
def idOf (get : RegField → Nat) : IdView where
  idValue := get .idValue

/-- The ID view field by field, in bit order. -/
def idEntries (v : IdView) : List (RegField × Nat) :=
  [(.idValue, v.idValue)]

/-- The DATASIZE view with the values of `get`. -/
def dataSizeOf (get : RegField → Nat) : DataSizeView where
  maxFrameSize := get .maxFrameSize
  maxFeedbackSize := get .maxFeedbackSize

/-- The DATASIZE view field by field, in bit order. -/
def dataSizeEntries (v : DataSizeView) : List (RegField × Nat) :=
  [(.maxFrameSize, v.maxFrameSize),
   (.maxFeedbackSize, v.maxFeedbackSize)]

/-- The CAPS view with the values of `get`. -/
def capsOf (get : RegField → Nat) : CapsView where
  supported17mhz := get .supported17mhz
  supported30mhz := get .supported30mhz
  supported50mhz := get .supported50mhz
  supportedSingleIo := get .supportedSingleIo
  supportedDualIo := get .supportedDualIo
  supportedQuadIo := get .supportedQuadIo
  bulkDataMaxWrite := get .bulkDataMaxWrite
  readDelayTimerValue := get .readDelayTimerValue
  maxTouchPoints := get .maxTouchPoints

/-- The CAPS view field by field, in bit order. -/
def capsEntries (v : CapsView) : List (RegField × Nat) :=
  [(.supported17mhz, v.supported17mhz),
   (.supported30mhz, v.supported30mhz),
   (.supported50mhz, v.supported50mhz),
   (.supportedSingleIo, v.supportedSingleIo),
   (.supportedDualIo, v.supportedDualIo),
   (.supportedQuadIo, v.supportedQuadIo),
   (.bulkDataMaxWrite, v.bulkDataMaxWrite),
   (.readDelayTimerValue, v.readDelayTimerValue),
   (.maxTouchPoints, v.maxTouchPoints)]

/-- The CONFIG view with the values of `get`. -/
def configOf (get : RegField → Nat) : ConfigView where
  touchEnable := get .touchEnable
  dhpm := get .dhpm
  bulkXferSize := get .bulkXferSize
  freqSelect := get .freqSelect

/-- The CONFIG view field by field, in bit order. -/
def configEntries (v : ConfigView) : List (RegField × Nat) :=
  [(.touchEnable, v.touchEnable),
   (.dhpm, v.dhpm),
   (.bulkXferSize, v.bulkXferSize),
   (.freqSelect, v.freqSelect)]

/-- The CMD view with the values of `get`. -/
def cmdOf (get : RegField → Nat) : CmdView where
  commandCode := get .commandCode

/-- The CMD view field by field, in bit order. -/
def cmdEntries (v : CmdView) : List (RegField × Nat) :=
  [(.commandCode, v.commandCode)]

/-- The PWRCTL view with the values of `get`. -/
def pwrCtlOf (get : RegField → Nat) : PwrCtlView where
  pwrStateCmd := get .pwrStateCmd

/-- The PWRCTL view field by field, in bit order. -/
def pwrCtlEntries (v : PwrCtlView) : List (RegField × Nat) :=
  [(.pwrStateCmd, v.pwrStateCmd)]

/-- The VENDORHW view with the values of `get`. -/
def vendorHwOf (get : RegField → Nat) : VendorHwView where
  vendorId := get .vendorId
  deviceId := get .deviceId

/-- The VENDORHW view field by field, in bit order. -/
def vendorHwEntries (v : VendorHwView) : List (RegField × Nat) :=
  [(.vendorId, v.vendorId),
   (.deviceId, v.deviceId)]

/-- The HWREV view with the values of `get`. -/
def hwRevOf (get : RegField → Nat) : HwRevView where
  hwRev := get .hwRev

/-- The HWREV view field by field, in bit order. -/
def hwRevEntries (v : HwRevView) : List (RegField × Nat) :=
  [(.hwRev, v.hwRev)]

/-- The FWREV view with the values of `get`. -/
def fwRevOf (get : RegField → Nat) : FwRevView where
  fwRev := get .fwRev

/-- The FWREV view field by field, in bit order. -/
def fwRevEntries (v : FwRevView) : List (RegField × Nat) :=
  [(.fwRev, v.fwRev)]

/-- The COMPAT view with the values of `get`. -/
def compatOf (get : RegField → Nat) : CompatView where
  minor := get .minor
  major := get .major
  intfRev := get .intfRev
  kernelCompatVer := get .kernelCompatVer

/-- The COMPAT view field by field, in bit order. -/
def compatEntries (v : CompatView) : List (RegField × Nat) :=
  [(.minor, v.minor),
   (.major, v.major),
   (.intfRev, v.intfRev),
   (.kernelCompatVer, v.kernelCompatVer)]

/-- The TESTCTL view with the values of `get`. -/
def testCtlOf (get : RegField → Nat) : TestCtlView where
  testCtrl := get .testCtrl

/-- The TESTCTL view field by field, in bit order. -/
def testCtlEntries (v : TestCtlView) : List (RegField × Nat) :=
  [(.testCtrl, v.testCtrl)]

/-! ## Enumerations -/

/-- The members of each enumeration in the source's order; a member's value is its position (R65, D2). -/
def members : Enumeration → List String
  | .intType => ["DATA_AVAILABLE", "RESET_OCCURRED", "ERROR_OCCURRED", "VENDOR_DATA", "GET_FEATURES"]
  | .pwrState => ["SLEEP", "DOZE", "ARMED", "SENSING"]
  | .initState => ["READY_FOR_OP", "FW_NEEDED", "DATA_NEEDED", "INIT_ERROR"]
  | .cmd => ["NOP", "SOFT_RESET", "PREP_FOR_READ", "GEN_TEST_PACKETS"]
  | .pwrCmd => ["NOP", "SLEEP", "DOZE", "ARMED", "SENSING"]
  | .bulk => ["SIZE_4B", "SIZE_8B", "SIZE_16B", "SIZE_32B", "SIZE_64B"]
  | .freq => ["RESERVED", "FREQ_17MHZ", "FREQ_30MHZ"]
  | .rawType => ["FRAME", "ERROR", "VENDOR_DATA", "HID_REPORT", "GET_FEATURES"]
  | .fbCmd => ["NONE", "SOFT_RESET", "GOTO_ARMED", "GOTO_SENSING", "GOTO_SLEEP", "GOTO_DOZE", "HARD_RESET"]
  | .fbData => ["FEEDBACK", "SET_FEATURES", "GET_FEATURES", "OUTPUT_REPORT", "STORE_DATA"]
  | .wrType => ["FW_LOAD", "DATA_LOAD", "FEEDBACK", "SET_FEATURES", "GET_FEATURES", "OUTPUT_REPORT",
      "NO_DATA_USE_DEFAULTS"]

/-- MAX of an enumeration: the count of its members; for BULK and FREQ the parameters (R65, R9). -/
def enumMax (cfg : Config) : Enumeration → Nat
  | .intType => 5
  | .pwrState => 4
  | .initState => 4
  | .cmd => 4
  | .pwrCmd => 5
  | .bulk => cfg.bulkCount
  | .freq => cfg.freqCount
  | .rawType => 5
  | .fbCmd => 7
  | .fbData => 5
  | .wrType => 7

/-- The enumeration of a register field of kind "enum" (R50, R56, R57, R58, R65). -/
def regEnum : RegField → Option Enumeration
  | .intType => some .intType
  | .pwrState => some .pwrState
  | .initState => some .initState
  | .bulkXferSize => some .bulk
  | .freqSelect => some .freq
  | .commandCode => some .cmd
  | .pwrStateCmd => some .pwrCmd
  | _ => none

/-- The enumeration of a header field of kind "enum" (R67, R69, R70, R65). -/
def hdrEnum : HdrField → Option Enumeration
  | .dataType => some .rawType
  | .feedbackCmdType => some .fbCmd
  | .feedbackDataType => some .fbData
  | .writeDataType => some .wrType
  | _ => none

/-- The member of PWR_STATE with a 2-bit value (R65); callers give a value below 4 (R132). -/
def pwrStateOf : Nat → PwrState
  | 0 => .sleep
  | 1 => .doze
  | 2 => .armed
  | _ => .sensing

/-- The member of INIT_STATE with a 2-bit value (R65); callers give a value below 4 (R132). -/
def initStateOf : Nat → InitState
  | 0 => .readyForOp
  | 1 => .fwNeeded
  | 2 => .dataNeeded
  | _ => .initError

/-- The interrupt class of an `int_type` value (R134): 5 and above are Unrecognized. -/
def intClassOf : Nat → IntClass
  | 0 => .dataAvailable
  | 1 => .resetOccurred
  | 2 => .errorOccurred
  | 3 => .vendorData
  | 4 => .getFeaturesAvailable
  | t => .unrecognized t

/-- The power state a power command asks for: `[Sleep, Doze, Armed, Sensing][c - 1]`, none for NOP and for
Unrecognized commands (R135). -/
def pwrTargetOf : Nat → Option PwrState
  | 1 => some .sleep
  | 2 => some .doze
  | 3 => some .armed
  | 4 => some .sensing
  | _ => none

/-- The command of a command code: `[SOFT_RESET, PREP_FOR_READ, GEN_TEST_PACKETS][c - 1]`, none for NOP and
for Unrecognized codes (R136). -/
def commandOf : Nat → Option Command
  | 1 => some .softReset
  | 2 => some .prepForRead
  | 3 => some .genTestPackets
  | _ => none

/-- `MAX_RAW_PAYLOAD_OTHER(t)` or, for FRAME, `MAX_FRAME_BYTES` (R125); RAW.BUILD has checked `t < 5`. -/
def rawMax (cfg : Config) : Nat → Nat
  | 0 => maxFrameBytes
  | 1 => cfg.maxRawOther.error
  | 2 => cfg.maxRawOther.vendorData
  | 3 => cfg.maxRawOther.hidReport
  | _ => cfg.maxRawOther.getFeatures

/-- `MAX_WRITE_PAYLOAD(t)` (R129); WR.BUILD has checked `t < 7`. -/
def writeMax (cfg : Config) : Nat → Nat
  | 0 => cfg.maxWrite.fwLoad
  | 1 => cfg.maxWrite.dataLoad
  | 2 => cfg.maxWrite.feedback
  | 3 => cfg.maxWrite.setFeatures
  | 4 => cfg.maxWrite.getFeatures
  | 5 => cfg.maxWrite.outputReport
  | _ => cfg.maxWrite.noDataUseDefaults

/-! ## Envelope layouts -/

/-- The byte index of each header field (R67 to R71). The two flags of the Error payload share the firmware
error word at index 4 (R71). -/
def hdrOffset : HdrField → Nat
  | .dataType => 0
  | .payloadSize => 4
  | .bufferId => 8
  | .protocolVer => 12
  | .compatId => 16
  | .transactionId => 32
  | .feedbackCmdType => 0
  | .feedbackDataType => 16
  | .destOffset => 20
  | .writeDataType => 0
  | .writeDataLen => 4
  | .errorType => 0
  | .invalidFrameCharacteristics => 4
  | .microframeIndexInvalid => 4

/-- The size in bytes of the compatibility id (R67, D17). -/
def compatIdSize (cfg : Config) : Nat :=
  match cfg.compatIdBytes with
  | .four => 4
  | .one => 1

/-- The size in bytes of each header field (R67 to R71). -/
def hdrSize (cfg : Config) : HdrField → Nat
  | .compatId => compatIdSize cfg
  | .errorType => 1
  | _ => 4

/-- The fields a RAW.BUILD header gives, in increasing byte offset (R125). -/
def rawEntries (h : RawHeader) : List (HdrField × Nat) :=
  [(.dataType, h.dataType), (.bufferId, h.bufferId), (.protocolVer, h.protocolVer),
   (.compatId, h.compatId), (.transactionId, h.transactionId)]

/-- The fields an FB.BUILD header gives, in increasing byte offset (R127). -/
def fbEntries (h : FbHeader) : List (HdrField × Nat) :=
  [(.feedbackCmdType, h.feedbackCmdType), (.bufferId, h.bufferId), (.protocolVer, h.protocolVer),
   (.feedbackDataType, h.feedbackDataType), (.destOffset, h.destOffset)]

/-- The field a WR.BUILD header gives (R129). -/
def wrEntries (h : WrHeader) : List (HdrField × Nat) := [(.writeDataType, h.writeDataType)]

end Sys2Proof.Machine
end

