-- ==== Sys2Proof/Decode.lean ====
section
/-! DEFINITION. The selector decoder (R44 to R46, R64), total on every request, rejecting illegal selectors by
the error response the spec names; the encoder of every instruction as a request; the operation table of R45
and the pseudo-instruction of R48. -/

namespace Sys2Proof

open Machine

/-- `sel[15:8]`, the operation class (R44). -/
def selClass (sel : Sel) : Nat := sel.toNat / 256

/-- `sel[7:0]`, the sub-operation (R44). -/
def selSub (sel : Sel) : Nat := sel.toNat % 256

/-- The REG.DECODE operation of a kind on `in.word` (R43, R45). -/
def regDecodeOf (k : RegKind) (w : Word) : Instr :=
  match k with
  | .status => .regDecodeStatus w
  | .frameChar => .regDecodeFrameChar w
  | .error => .regDecodeError w
  | .id => .regDecodeId w
  | .dataSize => .regDecodeDataSize w
  | .caps => .regDecodeCaps w
  | .config => .regDecodeConfig w
  | .cmd => .regDecodeCmd w
  | .pwrCtl => .regDecodePwrCtl w
  | .vendorHw => .regDecodeVendorHw w
  | .hwRev => .regDecodeHwRev w
  | .fwRev => .regDecodeFwRev w
  | .compat => .regDecodeCompat w
  | .testCtl => .regDecodeTestCtl w

/-- The REG.ENCODE operation of a kind on `in.view` (R43, R45). -/
def regEncodeOf (k : RegKind) (v : ViewPort) : Instr :=
  match k with
  | .status => .regEncodeStatus v.status
  | .frameChar => .regEncodeFrameChar v.frameChar
  | .error => .regEncodeError v.error
  | .id => .regEncodeId v.id
  | .dataSize => .regEncodeDataSize v.dataSize
  | .caps => .regEncodeCaps v.caps
  | .config => .regEncodeConfig v.config
  | .cmd => .regEncodeCmd v.cmd
  | .pwrCtl => .regEncodePwrCtl v.pwrCtl
  | .vendorHw => .regEncodeVendorHw v.vendorHw
  | .hwRev => .regEncodeHwRev v.hwRev
  | .fwRev => .regEncodeFwRev v.fwRev
  | .compat => .regEncodeCompat v.compat
  | .testCtl => .regEncodeTestCtl v.testCtl

/-- The operation of a sub-operation of each class that is not a register class (R44, R45). -/
def unitOp (cls sub : Nat) (r : Request) : Option Instr :=
  match cls, sub with
  | 0x10, 0x00 => some (.framePush r.dev r.word r.bytes)
  | 0x10, 0x01 => some (.frameReset r.dev)
  | 0x20, 0x00 => some (.rawParse r.bytes)
  | 0x20, 0x01 => some (.rawBuild r.hdr.raw r.bytes)
  | 0x21, 0x00 => some (.fbParse r.bytes)
  | 0x21, 0x01 => some (.fbBuild r.hdr.fb r.bytes)
  | 0x22, 0x00 => some (.wrParse r.bytes)
  | 0x22, 0x01 => some (.wrBuild r.hdr.wr r.bytes)
  | 0x23, 0x00 => some (.errpParse r.bytes)
  | 0x23, 0x01 => some (.errpBuild r.hdr.errp)
  | 0x30, 0x00 => some (.stateClassify r.word)
  | 0x30, 0x01 => some (.statePwrval r.word r.word2)
  | 0x30, 0x02 => some (.stateCmdval r.word r.word2)
  | _, _ => none

/-- The decoder (R44 to R46): the operation a request names with the operands that operation uses, or the
error of an illegal selector. It is total, and no operand decides whether a selector is legal. -/
def decode (r : Request) : Except Err Instr :=
  match selClass r.sel with
  | 0x01 =>
    match kindAt (selSub r.sel) with
    | some k => .ok (regDecodeOf k r.word)
    | none => .error (.unknownRegister (BitVec.ofNat 8 (selSub r.sel)))
  | 0x02 =>
    match kindAt (selSub r.sel) with
    | some k => .ok (regEncodeOf k r.view)
    | none => .error (.unknownRegister (BitVec.ofNat 8 (selSub r.sel)))
  | cls =>
    match unitOp cls (selSub r.sel) r with
    | some i => .ok i
    | none => .error (.unknownOperation r.sel)

/-! ## The encoder -/

/-- Every view with every field 0. -/
def ViewPort.zero : ViewPort where
  status := statusOf fun _ => 0
  frameChar := frameCharOf fun _ => 0
  error := errorOf fun _ => 0
  id := idOf fun _ => 0
  dataSize := dataSizeOf fun _ => 0
  caps := capsOf fun _ => 0
  config := configOf fun _ => 0
  cmd := cmdOf fun _ => 0
  pwrCtl := pwrCtlOf fun _ => 0
  vendorHw := vendorHwOf fun _ => 0
  hwRev := hwRevOf fun _ => 0
  fwRev := fwRevOf fun _ => 0
  compat := compatOf fun _ => 0
  testCtl := testCtlOf fun _ => 0

/-- Every header with every field 0. -/
def HeaderPort.zero : HeaderPort where
  raw := ⟨0, 0, 0, 0, 0⟩
  fb := ⟨0, 0, 0, 0, 0⟩
  wr := ⟨0⟩
  errp := ⟨0, 0, 0, errorOf fun _ => 0⟩

/-- The request with selector `sel` and every operand zero or empty. -/
def Request.ofSel (sel : Sel) : Request :=
  { sel := sel, dev := 0, word := 0, word2 := 0, view := ViewPort.zero, hdr := HeaderPort.zero, bytes := [] }

/-- The request of a REG.DECODE operation: class 0x01, the register's offset, `in.word` (R44, R45). -/
def regDecodeReq (k : RegKind) (w : Word) : Request :=
  { Request.ofSel (BitVec.ofNat 16 (0x0100 + offsetOf k)) with word := w }

/-- The request of a REG.ENCODE operation: class 0x02, the register's offset, `in.view` (R44, R45). -/
def regEncodeReq (k : RegKind) (v : ViewPort) : Request :=
  { Request.ofSel (BitVec.ofNat 16 (0x0200 + offsetOf k)) with view := v }

/-- The encoder (R43 to R45): the request of an instruction, with every operand the operation does not use
zero or empty. -/
def encode : Instr → Request
  | .regDecodeStatus w => regDecodeReq .status w
  | .regDecodeFrameChar w => regDecodeReq .frameChar w
  | .regDecodeError w => regDecodeReq .error w
  | .regDecodeId w => regDecodeReq .id w
  | .regDecodeDataSize w => regDecodeReq .dataSize w
  | .regDecodeCaps w => regDecodeReq .caps w
  | .regDecodeConfig w => regDecodeReq .config w
  | .regDecodeCmd w => regDecodeReq .cmd w
  | .regDecodePwrCtl w => regDecodeReq .pwrCtl w
  | .regDecodeVendorHw w => regDecodeReq .vendorHw w
  | .regDecodeHwRev w => regDecodeReq .hwRev w
  | .regDecodeFwRev w => regDecodeReq .fwRev w
  | .regDecodeCompat w => regDecodeReq .compat w
  | .regDecodeTestCtl w => regDecodeReq .testCtl w
  | .regEncodeStatus v => regEncodeReq .status { ViewPort.zero with status := v }
  | .regEncodeFrameChar v => regEncodeReq .frameChar { ViewPort.zero with frameChar := v }
  | .regEncodeError v => regEncodeReq .error { ViewPort.zero with error := v }
  | .regEncodeId v => regEncodeReq .id { ViewPort.zero with id := v }
  | .regEncodeDataSize v => regEncodeReq .dataSize { ViewPort.zero with dataSize := v }
  | .regEncodeCaps v => regEncodeReq .caps { ViewPort.zero with caps := v }
  | .regEncodeConfig v => regEncodeReq .config { ViewPort.zero with config := v }
  | .regEncodeCmd v => regEncodeReq .cmd { ViewPort.zero with cmd := v }
  | .regEncodePwrCtl v => regEncodeReq .pwrCtl { ViewPort.zero with pwrCtl := v }
  | .regEncodeVendorHw v => regEncodeReq .vendorHw { ViewPort.zero with vendorHw := v }
  | .regEncodeHwRev v => regEncodeReq .hwRev { ViewPort.zero with hwRev := v }
  | .regEncodeFwRev v => regEncodeReq .fwRev { ViewPort.zero with fwRev := v }
  | .regEncodeCompat v => regEncodeReq .compat { ViewPort.zero with compat := v }
  | .regEncodeTestCtl v => regEncodeReq .testCtl { ViewPort.zero with testCtl := v }
  | .framePush d fc data => { Request.ofSel 0x1000 with dev := d, word := fc, bytes := data }
  | .frameReset d => { Request.ofSel 0x1001 with dev := d }
  | .rawParse B => { Request.ofSel 0x2000 with bytes := B }
  | .rawBuild h P => { Request.ofSel 0x2001 with hdr := { HeaderPort.zero with raw := h }, bytes := P }
  | .fbParse B => { Request.ofSel 0x2100 with bytes := B }
  | .fbBuild h P => { Request.ofSel 0x2101 with hdr := { HeaderPort.zero with fb := h }, bytes := P }
  | .wrParse B => { Request.ofSel 0x2200 with bytes := B }
  | .wrBuild h P => { Request.ofSel 0x2201 with hdr := { HeaderPort.zero with wr := h }, bytes := P }
  | .errpParse B => { Request.ofSel 0x2300 with bytes := B }
  | .errpBuild h => { Request.ofSel 0x2301 with hdr := { HeaderPort.zero with errp := h } }
  | .stateClassify s => { Request.ofSel 0x3000 with word := s }
  | .statePwrval s p => { Request.ofSel 0x3001 with word := s, word2 := p }
  | .stateCmdval s k => { Request.ofSel 0x3002 with word := s, word2 := k }

/-- The selector of an instruction (R45). -/
def selectorOf (i : Instr) : Sel := (encode i).sel

/-- The request of a selector given as a number, every operand zero or empty: what a row of
`opcode_table.json` fixes is the selector alone. -/
def tableRequest (w : Nat) : Request := Request.ofSel (BitVec.ofNat 16 w)

/-- The instruction the decoder reads from a row of the operation table: 16 selector bits, operands zero. -/
def decodeTableWord (nbits w : Nat) : Option Instr :=
  if nbits ≤ 16 ∧ w < 2 ^ 16 then
    match decode (tableRequest w) with
    | .ok i => some i
    | .error _ => none
  else none

/-- The pseudo-instruction RAW.BUILDFRAME (R48): the packaging of a `Complete(bytes, hid)` event, with data type
HID_REPORT when `hid = 1` and FRAME otherwise. -/
def rawBuildFrame (frame : Bytes) (hid bufferId protocolVer compatId transactionId : Nat) : Instr :=
  .rawBuild ⟨if hid = 1 then 3 else 0, bufferId, protocolVer, compatId, transactionId⟩ frame

/-! ## The operation table -/

/-- The operand forms of the assembler's lines (R47). -/
inductive LineForm where
  | regDecode
  | regEncode (k : RegKind)
  | push
  | reset
  | parse
  | rawBuild | fbBuild | wrBuild | errpBuild
  | classify
  | validate
  | buildFrame
deriving DecidableEq, Repr

/-- The operations of rule R45: mnemonic, selector and operand form, in the order of the opcode table. -/
def opTable : List (String × Sel × LineForm) :=
  [("REG.DECODE.STATUS", 0x0100, .regDecode),
   ("REG.DECODE.FRAMECHAR", 0x0104, .regDecode),
   ("REG.DECODE.ERROR", 0x0108, .regDecode),
   ("REG.DECODE.ID", 0x0110, .regDecode),
   ("REG.DECODE.DATASIZE", 0x0114, .regDecode),
   ("REG.DECODE.CAPS", 0x0118, .regDecode),
   ("REG.DECODE.CONFIG", 0x011C, .regDecode),
   ("REG.DECODE.CMD", 0x0120, .regDecode),
   ("REG.DECODE.PWRCTL", 0x0124, .regDecode),
   ("REG.DECODE.VENDORHW", 0x0128, .regDecode),
   ("REG.DECODE.HWREV", 0x012C, .regDecode),
   ("REG.DECODE.FWREV", 0x0130, .regDecode),
   ("REG.DECODE.COMPAT", 0x0134, .regDecode),
   ("REG.DECODE.TESTCTL", 0x0140, .regDecode),
   ("REG.ENCODE.STATUS", 0x0200, .regEncode .status),
   ("REG.ENCODE.FRAMECHAR", 0x0204, .regEncode .frameChar),
   ("REG.ENCODE.ERROR", 0x0208, .regEncode .error),
   ("REG.ENCODE.ID", 0x0210, .regEncode .id),
   ("REG.ENCODE.DATASIZE", 0x0214, .regEncode .dataSize),
   ("REG.ENCODE.CAPS", 0x0218, .regEncode .caps),
   ("REG.ENCODE.CONFIG", 0x021C, .regEncode .config),
   ("REG.ENCODE.CMD", 0x0220, .regEncode .cmd),
   ("REG.ENCODE.PWRCTL", 0x0224, .regEncode .pwrCtl),
   ("REG.ENCODE.VENDORHW", 0x0228, .regEncode .vendorHw),
   ("REG.ENCODE.HWREV", 0x022C, .regEncode .hwRev),
   ("REG.ENCODE.FWREV", 0x0230, .regEncode .fwRev),
   ("REG.ENCODE.COMPAT", 0x0234, .regEncode .compat),
   ("REG.ENCODE.TESTCTL", 0x0240, .regEncode .testCtl),
   ("FRAME.PUSH", 0x1000, .push),
   ("FRAME.RESET", 0x1001, .reset),
   ("RAW.PARSE", 0x2000, .parse),
   ("RAW.BUILD", 0x2001, .rawBuild),
   ("FB.PARSE", 0x2100, .parse),
   ("FB.BUILD", 0x2101, .fbBuild),
   ("WR.PARSE", 0x2200, .parse),
   ("WR.BUILD", 0x2201, .wrBuild),
   ("ERRP.PARSE", 0x2300, .parse),
   ("ERRP.BUILD", 0x2301, .errpBuild),
   ("STATE.CLASSIFY", 0x3000, .classify),
   ("STATE.PWRVAL", 0x3001, .validate),
   ("STATE.CMDVAL", 0x3002, .validate)]

end Sys2Proof
end

