-- ==== Sys2Proof/Machine/Flags.lean ====
section
/-! DEFINITION. The conditions a result carries (R140), the derived byte counts (R54, R55), the validity of a
field's value (R78, R122) and the numeric codes of errors and reasons (R138, R139). The block stores no
flags (R20). -/

namespace Sys2Proof.Machine

/-- `sync_mismatch` (R80): the top byte of a Status word differs from `SYNC_BYTE`. -/
def syncMismatch (w : Word) : Bool := readField w .syncByte != syncByte

/-- `id_mismatch` (R85): an Identification word differs from `TIC_ID`. -/
def idMismatch (w : Word) : Bool := readField w .idValue != ticId

/-- The value is at or beyond the MAX of its enumeration (R76); a field of no enumeration never is. -/
def beyondMax (cfg : Config) (e : Option Enumeration) (v : Nat) : Bool :=
  match e with
  | some e => decide (enumMax cfg e ≤ v)
  | none => false

/-- The register fields of a view that are Unrecognized, in bit order (R76, R77). -/
def unrecognizedReg (cfg : Config) (es : List (RegField × Nat)) : List Field :=
  (es.filter fun e => beyondMax cfg (regEnum e.1) e.2).map fun e => .reg e.1

/-- The header fields that are Unrecognized, in byte order (R76). -/
def unrecognizedHdr (cfg : Config) (es : List (HdrField × Nat)) : List Field :=
  (es.filter fun e => beyondMax cfg (hdrEnum e.1) e.2).map fun e => .hdr e.1

/-- A size field in bytes: the field counts units of `SIZE_UNIT` bytes (R54, R55). -/
def unitBytes (n : Nat) : Nat := sizeUnit * n

/-- The encode range of a field beyond its width (R49, R78, D14): an enumerated value is below its MAX, and a
Frame Characteristics count or index is 1 to 31. -/
def inEncodeRange (cfg : Config) (f : RegField) (v : Nat) : Bool :=
  match f with
  | .microframesPerFrame => decide (mfpfMin ≤ v ∧ v ≤ mfpfMax)
  | .microframeIndex => decide (mfiMin ≤ v ∧ v ≤ mfiMax)
  | f => !beyondMax cfg (regEnum f) v

/-- REG.ENCODE accepts the value of a field: it fits the width and lies in the encode range (R78). -/
def regFieldOk (cfg : Config) (e : RegField × Nat) : Bool :=
  decide (e.2 < 2 ^ fieldWidth e.1) && inEncodeRange cfg e.1 e.2

/-- A build accepts the value of a header field: it fits the size and is below its MAX (R122). -/
def hdrFieldOk (cfg : Config) (e : HdrField × Nat) : Bool :=
  decide (e.2 < 2 ^ (8 * hdrSize cfg e.1)) && !beyondMax cfg (hdrEnum e.1) e.2

/-- `POWER_LEGAL(cur, tgt)` (R9, R135). -/
def powerLegal (cfg : Config) (cur tgt : PwrState) : Bool := !cfg.powerForbidden.contains (cur, tgt)

/-- `CMD_LEGAL(init, cmd)` (R9, R136). -/
def cmdLegal (cfg : Config) (init : InitState) (cmd : Command) : Bool := !cfg.cmdForbidden.contains (init, cmd)

/-- The numeric code of an error (R139, D36). -/
def errCode : Err → Nat
  | .fieldOutOfRange _ => 1
  | .unknownRegister _ => 2
  | .truncatedHeader _ _ => 3
  | .truncatedPayload _ _ => 4
  | .lengthMismatch _ _ => 5
  | .payloadTooLarge _ _ => 6
  | .offsetOutOfRange _ _ => 7
  | .versionIncompatible _ _ => 8
  | .reassemblyError _ => 9
  | .unknownOperation _ => 10

/-- The numeric code of a `ReassemblyError` reason (R139). -/
def reasonCode : ReassemblyReason → Nat
  | .invalidCharacteristics => 1
  | .outOfOrder => 2
  | .mfpfMismatch => 3
  | .oversize => 4
  | .dataLengthMismatch => 5
  | .sizeMismatch => 6
  | .hidFlagMismatch => 7

/-- The numeric code of an `Invalid` reason (R140). -/
def invalidCode : InvalidReason → Nat
  | .syncMismatch => 1
  | .busy => 2
  | .illegalTransition => 3

/-- The source's error class, (1) to (5), that a code realises; the request-port errors belong to none, and no
code realises class (4), which is decoded data (R138). -/
def sourceClass : Err → Option Nat
  | .fieldOutOfRange _ => some 1
  | .reassemblyError _ => some 2
  | .truncatedHeader _ _ => some 3
  | .truncatedPayload _ _ => some 3
  | .lengthMismatch _ _ => some 3
  | .payloadTooLarge _ _ => some 3
  | .offsetOutOfRange _ _ => some 3
  | .versionIncompatible _ _ => some 5
  | .unknownRegister _ => none
  | .unknownOperation _ => none

end Sys2Proof.Machine
end

