-- ==== Sys2Proof/Machine/State.lean ====
section
/-! DEFINITION. The state of the machine as plain data, the (empty) type of faults, the refusals, and the state
after reset. The block's architectural state is its Frame Reassembler instances and nothing else (R16); the
request queue, the response log and the configuration are the model's own fields (assumptions 1, 4). -/

namespace Sys2Proof.Machine

/-- The phase of a Frame Reassembler instance, `R.phase` (R21). -/
inductive Phase where
  | idle | collecting | faulted
deriving DecidableEq, Repr

/-- One Frame Reassembler instance (R21). -/
structure Reassembler where
  /-- `R.phase` -/
  phase : Phase
  /-- `R.buf`: the micro-frames accepted so far, in index order -/
  buf : Bytes
  /-- `R.mfpf`: micro-frames per frame of the frame being collected -/
  mfpf : Nat
  /-- `R.last`: index of the last micro-frame accepted -/
  last : Nat
  /-- `R.mfs`: micro-frame size of the frame being collected, in bytes -/
  mfs : Nat
  /-- `R.hid`: HID/raw flag of the frame being collected -/
  hid : Nat
deriving DecidableEq, Repr

/-- The reset value of every element of an instance (R25). -/
def Reassembler.reset : Reassembler :=
  { phase := .idle, buf := [], mfpf := 0, last := 0, mfs := 0, hid := 0 }

/-- The faults of the machine: none. "All errors are values returned to the caller, never thrown as
uncatchable faults" (R15); "a run never faults" (R164). Nothing raises one, which is safe. -/
inductive Fault where
deriving DecidableEq, Repr

/-- The refusals of the machine. -/
inductive Refusal where
  /-- Raised by an arm of `exec` whose instruction has no meaning yet; no arm raises it. Safe. -/
  | notModelled (mnemonic : String)
deriving DecidableEq, Repr

/-- The state of the machine. -/
structure State where
  /-- the Frame Reassembler instances, one per device; `N_DEVICES` is their number (R21, R23) -/
  instances : List Reassembler
  /-- the model's own: the configuration of this model instance, which no step changes (R18) -/
  cfg : Config
  /-- the model's own: the requests the host has issued and the block has not yet answered, in order of issue
  (R40, R164) -/
  pending : List Request
  /-- the model's own: the responses given so far, oldest first: the observation of a run (R15, R164) -/
  responses : List Response
deriving DecidableEq, Repr

/-- The reset state of a model instance with configuration `cfg` and `n` Frame Reassembler instances (R25,
R152): every instance at its reset value; the host has issued nothing and nothing has been answered. -/
def State.resetWith (cfg : Config) (n : Nat) : State :=
  { instances := List.replicate n Reassembler.reset, cfg := cfg, pending := [], responses := [] }

/-- The machine right after reset (R25, R152, R153), for the configuration of `Machine/Params.lean`. -/
def State.reset : State := State.resetWith resetConfig resetDevices

end Sys2Proof.Machine
end

