-- ==== Sys2Proof/Machine/Ops.lean ====
section
/-! DEFINITION. The named operations: reading and writing byte strings (R13, R14), the register codec's
generic decode and encode (R77, R78), the envelope codec's generic parse and build (R121, R122), answering a
request, raising an error (R14, R142) and the Frame Reassembler's reset and fault (R25, R117). -/

namespace Sys2Proof.Machine

/-! ## Byte strings -/

/-- `zeros(n)` (R13). -/
def zeros (n : Nat) : Bytes := List.replicate n 0

/-- `seq(n)` (R47): the bytes `0, 1, ..., n-1`, each taken mod 256. -/
def seqBytes (n : Nat) : Bytes := (List.range n).map (BitVec.ofNat 8)

/-- `B[a .. b)` (R13). -/
def sub (B : Bytes) (a b : Nat) : Bytes := (B.drop a).take (b - a)

/-- The little-endian value of a byte string (R13, R31). -/
def leValue : Bytes → Nat
  | [] => 0
  | b :: bs => b.toNat + 256 * leValue bs

/-- The little-endian string of `n` bytes of a value (R13, R31). -/
def leBytes : Nat → Nat → Bytes
  | 0, _ => []
  | n + 1, v => BitVec.ofNat 8 v :: leBytes n (v / 256)

/-- `MemRead(addr, n)` (R14): the little-endian value of `B[addr .. addr+n)`. -/
def memRead (B : Bytes) (addr n : Nat) : Nat := leValue (sub B addr (addr + n))

/-- `MemRead(addr, 4)` as the 32-bit word it is (R31). -/
def memReadWord (B : Bytes) (addr : Nat) : Word := BitVec.ofNat 32 (memRead B addr 4)

/-- Replaces the bytes of `out` from index `addr` on by those of `bs` (R14). -/
def overwrite (out : Bytes) (addr : Nat) (bs : Bytes) : Bytes :=
  out.take addr ++ bs ++ out.drop (addr + bs.length)

/-- `MemWrite(addr, n, v)` (R14). -/
def memWrite (out : Bytes) (addr n v : Nat) : Bytes := overwrite out addr (leBytes n v)

/-! ## Answering -/

/-- The response `resp` to the request being run: the response log grows by it, nothing else changes (R15). -/
def State.respond (s : State) (resp : Response) : State :=
  { s with responses := s.responses ++ [resp] }

/-- `return r` (R14): the response `Ok(r)`. -/
def answer (s : State) (r : Result) : Host.Outcome State Fault Refusal := .next (s.respond (.ok r))

/-- `raise E(info)` (R14, R142): the block's one way of taking an error. The response is `Err(E, info)`; no
other state is written, nothing is saved, no mode changes and control goes nowhere. There is no return from
an error (R143): the next request is handled like any other. -/
def raiseErr (s : State) (e : Err) : Host.Outcome State Fault Refusal := .next (s.respond (.err e))

/-- The end of an operation of a stateless unit: `return` or `raise` (R14, R16). -/
def finish (s : State) : Except Err Result → Host.Outcome State Fault Refusal
  | .ok r => answer s r
  | .error e => raiseErr s e

/-! ## Register codec -/

/-- Field insertion (R74): `w OR (v << lo)`. -/
def insertField (w : Word) (e : RegField × Nat) : Word := w ||| (BitVec.ofNat 32 e.2 <<< fieldLo e.1)

/-- The word with each field inserted and every other bit 0 (R74, R75). -/
def packFields (es : List (RegField × Nat)) : Word := es.foldl insertField 0

/-- Generic encode (R78): the fields are checked in increasing bit order and the first that fails is reported;
otherwise the packed word. -/
def encodeFields (cfg : Config) (es : List (RegField × Nat)) : Except Err Word :=
  match es.find? fun e => !regFieldOk cfg e with
  | some e => .error (.fieldOutOfRange (.reg e.1))
  | none => .ok (packFields es)

/-- REG.ENCODE's result: the word of `encodeFields` (R78). -/
def encodeResult (cfg : Config) (es : List (RegField × Nat)) : Except Err Result :=
  match encodeFields cfg es with
  | .ok w => .ok (.word w)
  | .error e => .error e

/-! ## Envelope codec -/

/-- `parse_common(B, H)` (R121): the payload, or the first structural error. -/
def parseCommon (cfg : Config) (B : Bytes) (H : Nat) : Except Err Bytes :=
  if B.length < H then .error (.truncatedHeader B.length H)
  else
    let n := memRead B (hdrOffset .payloadSize) 4
    if B.length - H < n then .error (.truncatedPayload (B.length - H) n)
    else if n < B.length - H ∧ cfg.allowTrailingBytes = false then .error (.lengthMismatch (B.length - H) n)
    else .ok (sub B H (H + n))

/-- Writes each header field at its place (R122, R74). -/
def writeFields (cfg : Config) (out : Bytes) (es : List (HdrField × Nat)) : Bytes :=
  es.foldl (fun out e => memWrite out (hdrOffset e.1) (hdrSize cfg e.1) e.2) out

/-- `build_common(h, P, H, max)` (R122): the field checks in increasing offset order, the size check, the
operation-specific `check`, then the bytes: `lenField` is the payload's length, never the caller's, and every
byte no field covers is 0. A length that does not fit the 32-bit length field raises `FieldOutOfRange` of that
field, by R12's last sentences: no rule truncates silently (assumption 7, DEDUCED). -/
def buildCommon (cfg : Config) (es : List (HdrField × Nat)) (lenField : HdrField) (P : Bytes) (H max : Nat)
    (check : Option Err) : Except Err Bytes :=
  match es.find? fun e => !hdrFieldOk cfg e with
  | some e => .error (.fieldOutOfRange (.hdr e.1))
  | none =>
    if max < P.length then .error (.payloadTooLarge P.length max)
    else
      match check with
      | some e => .error e
      | none =>
        if 2 ^ 32 ≤ P.length then .error (.fieldOutOfRange (.hdr lenField))
        else .ok (overwrite (writeFields cfg (zeros (H + P.length)) (es ++ [(lenField, P.length)])) H P)

/-- A build's result: the bytes of `buildCommon` (R122). -/
def builtResult : Except Err Bytes → Except Err Result
  | .ok bs => .ok (.built bs)
  | .error e => .error e

/-! ## Frame Reassembler -/

/-- `fault(r)` (R117): the buffer is discarded, the instance is Faulted with every other element at its reset
value, and `ReassemblyError(r)` is raised. The only write an operation that raises makes (R14). -/
def faultWith (r : ReassemblyReason) : Reassembler × Response :=
  ({ Reassembler.reset with phase := .faulted }, .err (.reassemblyError r))

/-- Instance `d` becomes `R` and the response is `resp`; no other instance changes (R23). -/
def State.setInstance (s : State) (d : Nat) (R : Reassembler) : State :=
  { s with instances := s.instances.set d R }

/-- `in.dev` names no instance: `UnknownOperation(sel)` (R23, R139). -/
def noSuchInstance (s : State) (sel : Sel) : Host.Outcome State Fault Refusal :=
  raiseErr s (.unknownOperation sel)

end Sys2Proof.Machine
end

