-- ==== Sys2Proof/Machine/RegDecode.lean ====
section
/-! DEFINITION. The REG.DECODE operations (R77, R82 to R95): the view of a raw word, the `unrecognized` list and
the kind's own conditions or byte counts. Decode never fails and writes no state. -/

namespace Sys2Proof.Machine

/-- The STATUS view of a word (R77, R82). -/
def decodeStatus (w : Word) : StatusView := statusOf (readField w)

/-- REG.DECODE.STATUS (R82). -/
def execRegDecodeStatus (w : Word) (s : State) : Host.Outcome State Fault Refusal :=
  answer s (.status (decodeStatus w) (unrecognizedReg s.cfg (statusEntries (decodeStatus w))) (syncMismatch w))

/-- The FRAMECHAR view of a word (R77, R83). -/
def decodeFrameChar (w : Word) : FrameCharView := frameCharOf (readField w)

/-- REG.DECODE.FRAMECHAR (R83). -/
def execRegDecodeFrameChar (w : Word) (s : State) : Host.Outcome State Fault Refusal :=
  answer s (.frameChar (decodeFrameChar w) (unrecognizedReg s.cfg (frameCharEntries (decodeFrameChar w))))

/-- The ERROR view of a word (R77, R84). -/
def decodeError (w : Word) : ErrorView := errorOf (readField w)

/-- REG.DECODE.ERROR (R84). -/
def execRegDecodeError (w : Word) (s : State) : Host.Outcome State Fault Refusal :=
  answer s (.error (decodeError w) (unrecognizedReg s.cfg (errorEntries (decodeError w))))

/-- The ID view of a word (R77, R85). -/
def decodeId (w : Word) : IdView := idOf (readField w)

/-- REG.DECODE.ID (R85). -/
def execRegDecodeId (w : Word) (s : State) : Host.Outcome State Fault Refusal :=
  answer s (.id (decodeId w) (unrecognizedReg s.cfg (idEntries (decodeId w))) (idMismatch w))

/-- The DATASIZE view of a word (R77, R86). -/
def decodeDataSize (w : Word) : DataSizeView := dataSizeOf (readField w)

/-- REG.DECODE.DATASIZE (R86). -/
def execRegDecodeDataSize (w : Word) (s : State) : Host.Outcome State Fault Refusal :=
  answer s (.dataSize (decodeDataSize w) (unrecognizedReg s.cfg (dataSizeEntries (decodeDataSize w)))
    (unitBytes (readField w .maxFrameSize))
    (unitBytes (readField w .maxFeedbackSize)))

/-- The CAPS view of a word (R77, R87). -/
def decodeCaps (w : Word) : CapsView := capsOf (readField w)

/-- REG.DECODE.CAPS (R87). -/
def execRegDecodeCaps (w : Word) (s : State) : Host.Outcome State Fault Refusal :=
  answer s (.caps (decodeCaps w) (unrecognizedReg s.cfg (capsEntries (decodeCaps w)))
    (unitBytes (readField w .bulkDataMaxWrite)))

/-- The CONFIG view of a word (R77, R88). -/
def decodeConfig (w : Word) : ConfigView := configOf (readField w)

/-- REG.DECODE.CONFIG (R88). -/
def execRegDecodeConfig (w : Word) (s : State) : Host.Outcome State Fault Refusal :=
  answer s (.config (decodeConfig w) (unrecognizedReg s.cfg (configEntries (decodeConfig w))))

/-- The CMD view of a word (R77, R89). -/
def decodeCmd (w : Word) : CmdView := cmdOf (readField w)

/-- REG.DECODE.CMD (R89). -/
def execRegDecodeCmd (w : Word) (s : State) : Host.Outcome State Fault Refusal :=
  answer s (.cmd (decodeCmd w) (unrecognizedReg s.cfg (cmdEntries (decodeCmd w))))

/-- The PWRCTL view of a word (R77, R90). -/
def decodePwrCtl (w : Word) : PwrCtlView := pwrCtlOf (readField w)

/-- REG.DECODE.PWRCTL (R90). -/
def execRegDecodePwrCtl (w : Word) (s : State) : Host.Outcome State Fault Refusal :=
  answer s (.pwrCtl (decodePwrCtl w) (unrecognizedReg s.cfg (pwrCtlEntries (decodePwrCtl w))))

/-- The VENDORHW view of a word (R77, R91). -/
def decodeVendorHw (w : Word) : VendorHwView := vendorHwOf (readField w)

/-- REG.DECODE.VENDORHW (R91). -/
def execRegDecodeVendorHw (w : Word) (s : State) : Host.Outcome State Fault Refusal :=
  answer s (.vendorHw (decodeVendorHw w) (unrecognizedReg s.cfg (vendorHwEntries (decodeVendorHw w))))

/-- The HWREV view of a word (R77, R92). -/
def decodeHwRev (w : Word) : HwRevView := hwRevOf (readField w)

/-- REG.DECODE.HWREV (R92). -/
def execRegDecodeHwRev (w : Word) (s : State) : Host.Outcome State Fault Refusal :=
  answer s (.hwRev (decodeHwRev w) (unrecognizedReg s.cfg (hwRevEntries (decodeHwRev w))))

/-- The FWREV view of a word (R77, R93). -/
def decodeFwRev (w : Word) : FwRevView := fwRevOf (readField w)

/-- REG.DECODE.FWREV (R93). -/
def execRegDecodeFwRev (w : Word) (s : State) : Host.Outcome State Fault Refusal :=
  answer s (.fwRev (decodeFwRev w) (unrecognizedReg s.cfg (fwRevEntries (decodeFwRev w))))

/-- The COMPAT view of a word (R77, R94). -/
def decodeCompat (w : Word) : CompatView := compatOf (readField w)

/-- REG.DECODE.COMPAT (R94). -/
def execRegDecodeCompat (w : Word) (s : State) : Host.Outcome State Fault Refusal :=
  answer s (.compat (decodeCompat w) (unrecognizedReg s.cfg (compatEntries (decodeCompat w))))

/-- The TESTCTL view of a word (R77, R95). -/
def decodeTestCtl (w : Word) : TestCtlView := testCtlOf (readField w)

/-- REG.DECODE.TESTCTL (R95). -/
def execRegDecodeTestCtl (w : Word) (s : State) : Host.Outcome State Fault Refusal :=
  answer s (.testCtl (decodeTestCtl w) (unrecognizedReg s.cfg (testCtlEntries (decodeTestCtl w))))

end Sys2Proof.Machine
end

