-- ==== Sys2Proof/Machine/Envelope.lean ====
section
/-! DEFINITION. The envelope codecs (R121 to R131): parse and build of the Raw Data, Feedback and Write
envelopes and of the fixed 12-byte Error payload. No state is written. -/

namespace Sys2Proof.Machine

/-- `MemRead` of a header field at its place (R73). -/
def readHdr (cfg : Config) (B : Bytes) (f : HdrField) : Nat := memRead B (hdrOffset f) (hdrSize cfg f)

/-- The byte index of the private block, the last `PRIV_BYTES` of the Raw Data header (R67, R68). -/
def privOffset : Nat := rawHdrBytes - privBytes

/-! ## Raw Data -/

/-- The Raw Data header of a byte string (R67, R68, R124); the reserved bytes are copied as they stand. -/
def rawParsedOf (cfg : Config) (B : Bytes) : RawParsed where
  dataType := readHdr cfg B .dataType
  payloadSize := readHdr cfg B .payloadSize
  bufferId := readHdr cfg B .bufferId
  protocolVer := readHdr cfg B .protocolVer
  compatId := readHdr cfg B .compatId
  reserved := sub B (hdrOffset .compatId + compatIdSize cfg) privOffset
  transactionId := readHdr cfg B .transactionId
  privReserved := sub B (hdrOffset .transactionId + 4) rawHdrBytes

/-- RAW.PARSE's result (R124): structure, then the version check on both version fields, then the header. -/
def rawParseResult (cfg : Config) (B : Bytes) : Except Err Result :=
  match parseCommon cfg B rawHdrBytes with
  | .error e => .error e
  | .ok payload =>
    let h := rawParsedOf cfg B
    if h.protocolVer ≠ cfg.hostProtocolVer.toNat ∨ h.compatId ≠ cfg.hostCompatId.toNat then
      .error (.versionIncompatible h.protocolVer (some h.compatId))
    else .ok (.rawParsed h payload (unrecognizedHdr cfg [(.dataType, h.dataType)]))

/-- RAW.PARSE (R124). -/
def execRawParse (B : Bytes) (s : State) : Host.Outcome State Fault Refusal := finish s (rawParseResult s.cfg B)

/-- RAW.BUILD's bytes (R125). -/
def rawBuildBytes (cfg : Config) (h : RawHeader) (P : Bytes) : Except Err Bytes :=
  buildCommon cfg (rawEntries h) .payloadSize P rawHdrBytes (rawMax cfg h.dataType) none

/-- RAW.BUILD (R125). -/
def execRawBuild (h : RawHeader) (P : Bytes) (s : State) : Host.Outcome State Fault Refusal :=
  finish s (builtResult (rawBuildBytes s.cfg h P))

/-! ## Feedback -/

/-- The Feedback header of a byte string (R69, R126). -/
def fbParsedOf (cfg : Config) (B : Bytes) : FbParsed where
  feedbackCmdType := readHdr cfg B .feedbackCmdType
  payloadSize := readHdr cfg B .payloadSize
  bufferId := readHdr cfg B .bufferId
  protocolVer := readHdr cfg B .protocolVer
  feedbackDataType := readHdr cfg B .feedbackDataType
  destOffset := readHdr cfg B .destOffset
  reserved := sub B (hdrOffset .destOffset + 4) fbHdrBytes

/-- FB.PARSE's result (R126): the Feedback header has a protocol version only. -/
def fbParseResult (cfg : Config) (B : Bytes) : Except Err Result :=
  match parseCommon cfg B fbHdrBytes with
  | .error e => .error e
  | .ok payload =>
    let h := fbParsedOf cfg B
    if h.protocolVer ≠ cfg.hostProtocolVer.toNat then .error (.versionIncompatible h.protocolVer none)
    else
      .ok (.fbParsed h payload (unrecognizedHdr cfg
        [(.feedbackCmdType, h.feedbackCmdType), (.feedbackDataType, h.feedbackDataType)]))

/-- FB.PARSE (R126). -/
def execFbParse (B : Bytes) (s : State) : Host.Outcome State Fault Refusal := finish s (fbParseResult s.cfg B)

/-- The window check of FB.BUILD (R127), on unbounded naturals: `dest_offset` is an absolute data-window
address, and the end `dest_offset + len` may reach `WINDOW_HI` and no further (I6). -/
def windowCheck (dest len : Nat) : Option Err :=
  if dest < windowLo ∨ windowHi < dest + len then some (.offsetOutOfRange dest len) else none

/-- FB.BUILD's bytes (R127). -/
def fbBuildBytes (cfg : Config) (h : FbHeader) (P : Bytes) : Except Err Bytes :=
  buildCommon cfg (fbEntries h) .payloadSize P fbHdrBytes maxFeedbackBytes (windowCheck h.destOffset P.length)

/-- FB.BUILD (R127). -/
def execFbBuild (h : FbHeader) (P : Bytes) (s : State) : Host.Outcome State Fault Refusal :=
  finish s (builtResult (fbBuildBytes s.cfg h P))

/-! ## Write -/

/-- The Write header of a byte string (R70, R128). -/
def wrParsedOf (cfg : Config) (B : Bytes) : WrParsed where
  writeDataType := readHdr cfg B .writeDataType
  writeDataLen := readHdr cfg B .writeDataLen

/-- WR.PARSE's result (R128): no version field, so no version check. -/
def wrParseResult (cfg : Config) (B : Bytes) : Except Err Result :=
  match parseCommon cfg B wrHdrBytes with
  | .error e => .error e
  | .ok payload =>
    let h := wrParsedOf cfg B
    .ok (.wrParsed h payload (unrecognizedHdr cfg [(.writeDataType, h.writeDataType)]))

/-- WR.PARSE (R128). -/
def execWrParse (B : Bytes) (s : State) : Host.Outcome State Fault Refusal := finish s (wrParseResult s.cfg B)

/-- WR.BUILD's bytes (R129): no destination offset, so no window check. -/
def wrBuildBytes (cfg : Config) (h : WrHeader) (P : Bytes) : Except Err Bytes :=
  buildCommon cfg (wrEntries h) .writeDataLen P wrHdrBytes (writeMax cfg h.writeDataType) none

/-- WR.BUILD (R129). -/
def execWrBuild (h : WrHeader) (P : Bytes) (s : State) : Host.Outcome State Fault Refusal :=
  finish s (builtResult (wrBuildBytes s.cfg h P))

/-! ## Error payload -/

/-- The index of the Error register copy in the Error payload, `err_reg` (R71). -/
def errRegOffset : Nat := 8

/-- The Error payload of a 12-byte string (R71, R130): bit 0 and bit 1 of the firmware error word are the two
flags, and the Error register copy is decoded as REG.DECODE.ERROR does. -/
def errpParsedOf (cfg : Config) (B : Bytes) : ErrpParsed where
  errorType := readHdr cfg B .errorType
  reserved := sub B (hdrOffset .errorType + 1) (hdrOffset .invalidFrameCharacteristics)
  fwWord := memReadWord B (hdrOffset .invalidFrameCharacteristics)
  invalidFrameCharacteristics := bits (memReadWord B (hdrOffset .invalidFrameCharacteristics)) 0 0
  microframeIndexInvalid := bits (memReadWord B (hdrOffset .microframeIndexInvalid)) 1 1
  errRaw := memReadWord B errRegOffset
  err := decodeError (memReadWord B errRegOffset)

/-- ERRP.PARSE's result (R130). -/
def errpParseResult (cfg : Config) (B : Bytes) : Except Err Result :=
  if B.length < errpBytes then .error (.truncatedHeader B.length errpBytes)
  else if errpBytes < B.length ∧ cfg.allowTrailingBytes = false then .error (.lengthMismatch B.length errpBytes)
  else .ok (.errpParsed (errpParsedOf cfg B))

/-- ERRP.PARSE (R130). -/
def execErrpParse (B : Bytes) (s : State) : Host.Outcome State Fault Refusal := finish s (errpParseResult s.cfg B)

/-- ERRP.BUILD's bytes (R131): the three header checks in order, then the Error view's, then 12 bytes. -/
def errpBuildBytes (cfg : Config) (h : ErrpHeader) : Except Err Bytes :=
  if 255 < h.errorType then .error (.fieldOutOfRange (.hdr .errorType))
  else if 1 < h.invalidFrameCharacteristics then .error (.fieldOutOfRange (.hdr .invalidFrameCharacteristics))
  else if 1 < h.microframeIndexInvalid then .error (.fieldOutOfRange (.hdr .microframeIndexInvalid))
  else
    match encodeFields cfg (errorEntries h.err) with
    | .error e => .error e
    | .ok e =>
      let fw := h.invalidFrameCharacteristics ||| h.microframeIndexInvalid <<< 1
      .ok (memWrite (memWrite (memWrite (zeros errpBytes) (hdrOffset .errorType) 1 h.errorType)
        (hdrOffset .invalidFrameCharacteristics) 4 fw) errRegOffset 4 e.toNat)

/-- ERRP.BUILD (R131): `in.bytes` is not used. -/
def execErrpBuild (h : ErrpHeader) (s : State) : Host.Outcome State Fault Refusal :=
  finish s (builtResult (errpBuildBytes s.cfg h))

end Sys2Proof.Machine
end

