-- ==== Sys2Proof/Machine/Frame.lean ====
section
/-! DEFINITION. The Frame Reassembler (R110 to R119): one micro-frame pushed to an instance, and the reset of an
instance. -/

namespace Sys2Proof.Machine

/-- A micro-frame that opens a frame, the instance being Idle or Faulted (R114): its snapshot `v` and data have
passed the checks of R113. -/
def openFrame (v : FrameCharView) (data : Bytes) : Reassembler × Response :=
  if v.microframeIndex ≠ 1 then faultWith .outOfOrder
  else if maxFrameBytes < v.microframeSize then faultWith .oversize
  else if v.microframesPerFrame = 1 then (Reassembler.reset, .ok (.complete data v.hidReport))
  else
    ({ phase := .collecting, buf := data, mfpf := v.microframesPerFrame, last := 1, mfs := v.microframeSize,
       hid := v.hidReport }, .ok .collecting)

/-- A micro-frame compared with the frame being collected and appended to it (R115), completing the frame when
its index is the frame's count (R116). -/
def appendFrame (R : Reassembler) (v : FrameCharView) (data : Bytes) : Reassembler × Response :=
  if v.microframesPerFrame ≠ R.mfpf then faultWith .mfpfMismatch
  else if v.microframeIndex ≠ R.last + 1 then faultWith .outOfOrder
  else if v.microframeSize ≠ R.mfs then faultWith .sizeMismatch
  else if v.hidReport ≠ R.hid then faultWith .hidFlagMismatch
  else if maxFrameBytes < R.buf.length + v.microframeSize then faultWith .oversize
  else if v.microframeIndex = R.mfpf then (Reassembler.reset, .ok (.complete (R.buf ++ data) R.hid))
  else ({ R with buf := R.buf ++ data, last := v.microframeIndex }, .ok .collecting)

/-- FRAME.PUSH on one instance (R112): a Faulted instance drops every micro-frame whose index is not 1 (R118);
the snapshot's characteristics and the data's length are checked (R113); then the frame is opened or appended
to. -/
def pushFrame (R : Reassembler) (fc : Word) (data : Bytes) : Reassembler × Response :=
  let v := decodeFrameChar fc
  if R.phase = .faulted ∧ v.microframeIndex ≠ 1 then (R, .ok .dropped)
  else if v.microframesPerFrame = 0 ∨ v.microframeIndex = 0 ∨ v.microframesPerFrame < v.microframeIndex then
    faultWith .invalidCharacteristics
  else if data.length ≠ v.microframeSize then faultWith .dataLengthMismatch
  else
    match R.phase with
    | .idle => openFrame v data
    | .faulted => openFrame v data
    | .collecting => appendFrame R v data

/-- FRAME.PUSH (R112): instance `d` only is written; an instance index out of range raises
`UnknownOperation(0x1000)` (R23). -/
def execFramePush (d : Nat) (fc : Word) (data : Bytes) (s : State) : Host.Outcome State Fault Refusal :=
  match s.instances[d]? with
  | none => noSuchInstance s 0x1000
  | some R =>
    .next ((s.setInstance d (pushFrame R fc data).1).respond (pushFrame R fc data).2)

/-- FRAME.RESET (R119): instance `d` takes its reset values; an instance index out of range raises
`UnknownOperation(0x1001)` (R23). -/
def execFrameReset (d : Nat) (s : State) : Host.Outcome State Fault Refusal :=
  match s.instances[d]? with
  | none => noSuchInstance s 0x1001
  | some _ => answer (s.setInstance d Reassembler.reset) .resetDone

end Sys2Proof.Machine
end

