-- ==== Sys2Proof/Machine/Interpreter.lean ====
section
/-! DEFINITION. The State Interpreter (R132 to R137): it classifies a Status snapshot and validates a requested
power command or command against it. It holds no state, and an `Invalid` outcome is an `Ok` result (R133). -/

namespace Sys2Proof.Machine

/-- The classification of a Status snapshot (R134): the class depends on `int_type` alone, and a sync mismatch
does not suppress it. -/
def classify (w : Word) : Classification where
  intClass := intClassOf (decodeStatus w).intType
  pending := (decodeStatus w).intStatus
  power := pwrStateOf (decodeStatus w).pwrState
  init := initStateOf (decodeStatus w).initState
  busy := (decodeStatus w).busy
  syncMismatch := syncMismatch w

/-- STATE.CLASSIFY (R134). -/
def execStateClassify (status : Word) (s : State) : Host.Outcome State Fault Refusal :=
  answer s (.classified (classify status))

/-- The two checks of both validations that come before the requested word is looked at (R135, R136). -/
def snapshotInvalid (cfg : Config) (status : Word) : Option InvalidReason :=
  if syncMismatch status then some .syncMismatch
  else if cfg.busyGatesValidate ∧ (decodeStatus status).busy = 1 then some .busy
  else none

/-- The outcome of a power command request (R135): NOP and Unrecognized commands are both "no change", told
apart by the flag. -/
def validatePower (cfg : Config) (status request : Word) : PwrOutcome :=
  let cur := pwrStateOf (decodeStatus status).pwrState
  let c := (decodePwrCtl request).pwrStateCmd
  match snapshotInvalid cfg status with
  | some r => .invalid r
  | none =>
    match pwrTargetOf c with
    | none => .accepted .noChange (beyondMax cfg (some .pwrCmd) c) cur
    | some tgt => if powerLegal cfg cur tgt then .accepted (.state tgt) false cur else .invalid .illegalTransition

/-- STATE.PWRVAL (R135). -/
def execStatePwrval (status request : Word) (s : State) : Host.Outcome State Fault Refusal :=
  answer s (.pwrValidated (validatePower s.cfg status request))

/-- The outcome of a command request (R136). -/
def validateCommand (cfg : Config) (status request : Word) : CmdOutcome :=
  let init := initStateOf (decodeStatus status).initState
  let c := (decodeCmd request).commandCode
  match snapshotInvalid cfg status with
  | some r => .invalid r
  | none =>
    match commandOf c with
    | none => .accepted .noOp (beyondMax cfg (some .cmd) c)
    | some cmd => if cmdLegal cfg init cmd then .accepted (.command cmd) false else .invalid .illegalTransition

/-- STATE.CMDVAL (R136). -/
def execStateCmdval (status request : Word) (s : State) : Host.Outcome State Fault Refusal :=
  answer s (.cmdValidated (validateCommand s.cfg status request))

end Sys2Proof.Machine
end

