-- ==== Sys2Proof/Machine/RegEncode.lean ====
section
/-! DEFINITION. The REG.ENCODE operations (R78, R96 to R109): the word of a view, or `FieldOutOfRange` of the
first field, in bit order, whose value does not fit its width or its encode range. No state is written. -/

namespace Sys2Proof.Machine

/-- REG.ENCODE.STATUS (R96). -/
def execRegEncodeStatus (v : StatusView) (s : State) : Host.Outcome State Fault Refusal :=
  finish s (encodeResult s.cfg (statusEntries v))

/-- REG.ENCODE.FRAMECHAR (R97). -/
def execRegEncodeFrameChar (v : FrameCharView) (s : State) : Host.Outcome State Fault Refusal :=
  finish s (encodeResult s.cfg (frameCharEntries v))

/-- REG.ENCODE.ERROR (R98). -/
def execRegEncodeError (v : ErrorView) (s : State) : Host.Outcome State Fault Refusal :=
  finish s (encodeResult s.cfg (errorEntries v))

/-- REG.ENCODE.ID (R99). -/
def execRegEncodeId (v : IdView) (s : State) : Host.Outcome State Fault Refusal :=
  finish s (encodeResult s.cfg (idEntries v))

/-- REG.ENCODE.DATASIZE (R100). -/
def execRegEncodeDataSize (v : DataSizeView) (s : State) : Host.Outcome State Fault Refusal :=
  finish s (encodeResult s.cfg (dataSizeEntries v))

/-- REG.ENCODE.CAPS (R101). -/
def execRegEncodeCaps (v : CapsView) (s : State) : Host.Outcome State Fault Refusal :=
  finish s (encodeResult s.cfg (capsEntries v))

/-- REG.ENCODE.CONFIG (R102). -/
def execRegEncodeConfig (v : ConfigView) (s : State) : Host.Outcome State Fault Refusal :=
  finish s (encodeResult s.cfg (configEntries v))

/-- REG.ENCODE.CMD (R103). -/
def execRegEncodeCmd (v : CmdView) (s : State) : Host.Outcome State Fault Refusal :=
  finish s (encodeResult s.cfg (cmdEntries v))

/-- REG.ENCODE.PWRCTL (R104). -/
def execRegEncodePwrCtl (v : PwrCtlView) (s : State) : Host.Outcome State Fault Refusal :=
  finish s (encodeResult s.cfg (pwrCtlEntries v))

/-- REG.ENCODE.VENDORHW (R105). -/
def execRegEncodeVendorHw (v : VendorHwView) (s : State) : Host.Outcome State Fault Refusal :=
  finish s (encodeResult s.cfg (vendorHwEntries v))

/-- REG.ENCODE.HWREV (R106). -/
def execRegEncodeHwRev (v : HwRevView) (s : State) : Host.Outcome State Fault Refusal :=
  finish s (encodeResult s.cfg (hwRevEntries v))

/-- REG.ENCODE.FWREV (R107). -/
def execRegEncodeFwRev (v : FwRevView) (s : State) : Host.Outcome State Fault Refusal :=
  finish s (encodeResult s.cfg (fwRevEntries v))

/-- REG.ENCODE.COMPAT (R108). -/
def execRegEncodeCompat (v : CompatView) (s : State) : Host.Outcome State Fault Refusal :=
  finish s (encodeResult s.cfg (compatEntries v))

/-- REG.ENCODE.TESTCTL (R109). -/
def execRegEncodeTestCtl (v : TestCtlView) (s : State) : Host.Outcome State Fault Refusal :=
  finish s (encodeResult s.cfg (testCtlEntries v))

end Sys2Proof.Machine
end

