-- ==== Sys2Proof/Machine/Dispatch.lean ====
section
/-! DEFINITION. `exec`: one arm per operation of rule R45, each one direct call of its meaning. -/

namespace Sys2Proof.Machine

def exec (i : Instr) (s : State) : Host.Outcome State Fault Refusal :=
  match i with
  | .regDecodeStatus w => Sys2Proof.Machine.execRegDecodeStatus w s
  | .regDecodeFrameChar w => Sys2Proof.Machine.execRegDecodeFrameChar w s
  | .regDecodeError w => Sys2Proof.Machine.execRegDecodeError w s
  | .regDecodeId w => Sys2Proof.Machine.execRegDecodeId w s
  | .regDecodeDataSize w => Sys2Proof.Machine.execRegDecodeDataSize w s
  | .regDecodeCaps w => Sys2Proof.Machine.execRegDecodeCaps w s
  | .regDecodeConfig w => Sys2Proof.Machine.execRegDecodeConfig w s
  | .regDecodeCmd w => Sys2Proof.Machine.execRegDecodeCmd w s
  | .regDecodePwrCtl w => Sys2Proof.Machine.execRegDecodePwrCtl w s
  | .regDecodeVendorHw w => Sys2Proof.Machine.execRegDecodeVendorHw w s
  | .regDecodeHwRev w => Sys2Proof.Machine.execRegDecodeHwRev w s
  | .regDecodeFwRev w => Sys2Proof.Machine.execRegDecodeFwRev w s
  | .regDecodeCompat w => Sys2Proof.Machine.execRegDecodeCompat w s
  | .regDecodeTestCtl w => Sys2Proof.Machine.execRegDecodeTestCtl w s
  | .regEncodeStatus v => Sys2Proof.Machine.execRegEncodeStatus v s
  | .regEncodeFrameChar v => Sys2Proof.Machine.execRegEncodeFrameChar v s
  | .regEncodeError v => Sys2Proof.Machine.execRegEncodeError v s
  | .regEncodeId v => Sys2Proof.Machine.execRegEncodeId v s
  | .regEncodeDataSize v => Sys2Proof.Machine.execRegEncodeDataSize v s
  | .regEncodeCaps v => Sys2Proof.Machine.execRegEncodeCaps v s
  | .regEncodeConfig v => Sys2Proof.Machine.execRegEncodeConfig v s
  | .regEncodeCmd v => Sys2Proof.Machine.execRegEncodeCmd v s
  | .regEncodePwrCtl v => Sys2Proof.Machine.execRegEncodePwrCtl v s
  | .regEncodeVendorHw v => Sys2Proof.Machine.execRegEncodeVendorHw v s
  | .regEncodeHwRev v => Sys2Proof.Machine.execRegEncodeHwRev v s
  | .regEncodeFwRev v => Sys2Proof.Machine.execRegEncodeFwRev v s
  | .regEncodeCompat v => Sys2Proof.Machine.execRegEncodeCompat v s
  | .regEncodeTestCtl v => Sys2Proof.Machine.execRegEncodeTestCtl v s
  | .framePush d fc data => Sys2Proof.Machine.execFramePush d fc data s
  | .frameReset d => Sys2Proof.Machine.execFrameReset d s
  | .rawParse B => Sys2Proof.Machine.execRawParse B s
  | .rawBuild h P => Sys2Proof.Machine.execRawBuild h P s
  | .fbParse B => Sys2Proof.Machine.execFbParse B s
  | .fbBuild h P => Sys2Proof.Machine.execFbBuild h P s
  | .wrParse B => Sys2Proof.Machine.execWrParse B s
  | .wrBuild h P => Sys2Proof.Machine.execWrBuild h P s
  | .errpParse B => Sys2Proof.Machine.execErrpParse B s
  | .errpBuild h => Sys2Proof.Machine.execErrpBuild h s
  | .stateClassify w => Sys2Proof.Machine.execStateClassify w s
  | .statePwrval w p => Sys2Proof.Machine.execStatePwrval w p s
  | .stateCmdval w k => Sys2Proof.Machine.execStateCmdval w k s

end Sys2Proof.Machine
end

