-- ==== Sys2Proof/Machine/Step.lean ====
section
/-! DEFINITION. One step of the machine: the block takes the oldest pending request, decodes its selector and
answers it (R40, R43). -/

namespace Sys2Proof.Machine

/-- One step. With no request pending the block does nothing (assumption 5). Otherwise the oldest request leaves
the queue and is answered: an illegal selector by its error (R46), a legal one by its operation. -/
def step (s : State) : Host.Outcome State Fault Refusal :=
  match s.pending with
  | [] => .next s
  | r :: rest =>
    match decode r with
    | .error e => raiseErr { s with pending := rest } e
    | .ok i => exec i { s with pending := rest }

/-- The state in which the request with selector `w` and operands zero is the next the block takes: the host
issues it ahead of whatever is pending (assumption 4). `nbits` is the 16 bits of a selector. -/
def State.withFetchWord (s : State) (nbits w : Nat) : State :=
  { s with pending := tableRequest (w % 2 ^ nbits) :: s.pending }

end Sys2Proof.Machine
end

