-- ==== Sys2Proof/Machine/Asm.lean ====
section
/-! DEFINITION. The assembler of rule R47 on abstract lines: which lines are well formed, and the request of a
line, with the pseudo-instruction of R48 expanded. -/

namespace Sys2Proof.Machine

/-- The spec's name of a register field (R50 to R63). -/
def regName : RegField → String
  | .intStatus => "int_status"
  | .intType => "int_type"
  | .pwrState => "pwr_state"
  | .initState => "init_state"
  | .busy => "busy"
  | .syncByte => "sync_byte"
  | .microframeSize => "microframe_size"
  | .microframesPerFrame => "microframes_per_frame"
  | .microframeIndex => "microframe_index"
  | .hidReport => "hid_report"
  | .invalidFw => "invalid_fw"
  | .invalidData => "invalid_data"
  | .selfTestFailed => "self_test_failed"
  | .fatalError => "fatal_error"
  | .vendorErrors => "vendor_errors"
  | .idValue => "id_value"
  | .maxFrameSize => "max_frame_size"
  | .maxFeedbackSize => "max_feedback_size"
  | .supported17mhz => "supported_17mhz"
  | .supported30mhz => "supported_30mhz"
  | .supported50mhz => "supported_50mhz"
  | .supportedSingleIo => "supported_single_io"
  | .supportedDualIo => "supported_dual_io"
  | .supportedQuadIo => "supported_quad_io"
  | .bulkDataMaxWrite => "bulk_data_max_write"
  | .readDelayTimerValue => "read_delay_timer_value"
  | .maxTouchPoints => "max_touch_points"
  | .touchEnable => "touch_enable"
  | .dhpm => "dhpm"
  | .bulkXferSize => "bulk_xfer_size"
  | .freqSelect => "freq_select"
  | .commandCode => "command_code"
  | .pwrStateCmd => "pwr_state_cmd"
  | .vendorId => "vendor_id"
  | .deviceId => "device_id"
  | .hwRev => "hw_rev"
  | .fwRev => "fw_rev"
  | .minor => "minor"
  | .major => "major"
  | .intfRev => "intf_rev"
  | .kernelCompatVer => "kernel_compat_ver"
  | .testCtrl => "test_ctrl"

/-- The spec's name of a header field (R67 to R71). -/
def hdrName : HdrField → String
  | .dataType => "data_type"
  | .payloadSize => "payload_size"
  | .bufferId => "buffer_id"
  | .protocolVer => "protocol_ver"
  | .compatId => "compat_id"
  | .transactionId => "transaction_id"
  | .feedbackCmdType => "feedback_cmd_type"
  | .feedbackDataType => "feedback_data_type"
  | .destOffset => "dest_offset"
  | .writeDataType => "write_data_type"
  | .writeDataLen => "write_data_len"
  | .errorType => "error_type"
  | .invalidFrameCharacteristics => "invalid_frame_characteristics"
  | .microframeIndexInvalid => "microframe_index_invalid"

/-- The field names of a record operand, each with the enumeration whose members may stand for its value. -/
abbrev Slots := List (String × Option Enumeration)

/-- The slots of a view operand. -/
def regSlots (fs : List RegField) : Slots := fs.map fun f => (regName f, regEnum f)

/-- The slots of a header operand. -/
def hdrSlots (fs : List HdrField) : Slots := fs.map fun f => (hdrName f, hdrEnum f)

/-- The header fields each build names, in R47's order; RAW.BUILDFRAME leaves `data_type` out (R48). -/
def formFields : LineForm → List HdrField
  | .rawBuild => [.dataType, .bufferId, .protocolVer, .compatId, .transactionId]
  | .fbBuild => [.feedbackCmdType, .bufferId, .protocolVer, .feedbackDataType, .destOffset]
  | .wrBuild => [.writeDataType]
  | .errpBuild => [.errorType, .invalidFrameCharacteristics, .microframeIndexInvalid]
  | .buildFrame => [.bufferId, .protocolVer, .compatId, .transactionId]
  | _ => []

/-- The value of a number or member name; none for a name the enumeration does not have (R47). -/
def numValue (e : Option Enumeration) : NumExpr → Option Nat
  | .lit n => some n
  | .member m =>
    match e with
    | some e => (members e).idxOf? m
    | none => none

/-- The first name of a list that stands in it twice. -/
def firstDuplicate : List String → Option String
  | [] => none
  | x :: xs => if xs.contains x then some x else firstDuplicate xs

/-- A record names every field of its kind, once, and no other, each with a value (R47). -/
def checkRecord (slots : Slots) (fs : List (String × NumExpr)) : Option SyntaxError :=
  match firstDuplicate (fs.map Prod.fst) with
  | some x => some (.duplicateField x)
  | none =>
    match fs.find? fun f => (slots.lookup f.1).isNone with
    | some f => some (.unknownField f.1)
    | none =>
      match slots.find? fun sl => (fs.lookup sl.1).isNone with
      | some sl => some (.missingField sl.1)
      | none =>
        match fs.find? fun f => (numValue ((slots.lookup f.1).getD none) f.2).isNone with
        | some f => some (.unknownMember f.1)
        | none => none

/-- A word operand is a 32-bit number (R43, R47). -/
def checkWord (n : Nat) : Option SyntaxError := if n < 2 ^ 32 then none else some (.wordTooWide n)

/-- The elements of a byte-string operand are bytes (R13, R47). -/
def checkBytes : BytesExpr → Option SyntaxError
  | .lit bs =>
    match bs.find? fun b => decide (256 ≤ b) with
    | some b => some (.byteTooWide b)
    | none => none
  | _ => none

/-- A record operand with or without the nested Error view (R47: ERRP.BUILD alone has one). -/
def checkRecordExpr (form : LineForm) (r : RecordExpr) : Option SyntaxError :=
  match form, r.err with
  | .regEncode k, none => checkRecord (regSlots (fieldsOf k)) r.fields
  | .errpBuild, some fs =>
    match checkRecord (hdrSlots (formFields .errpBuild)) r.fields with
    | some e => some e
    | none => checkRecord (regSlots (fieldsOf .error)) fs
  | .errpBuild, none => some (.missingField "err")
  | form, none => checkRecord (hdrSlots (formFields form)) r.fields
  | _, some _ => some (.unknownField "err")

/-- The operands of a line are, in number and shape, those of its form (R47, R48). -/
def checkOperands (form : LineForm) (ops : List Operand) : Option SyntaxError :=
  match form, ops with
  | .regDecode, [.num w] => checkWord w
  | .classify, [.num w] => checkWord w
  | .validate, [.num w, .num p] => if (checkWord w).isNone then checkWord p else checkWord w
  | .regEncode k, [.record r] => checkRecordExpr (.regEncode k) r
  | .push, [.num _, .num w, .bytes b] => if (checkWord w).isNone then checkBytes b else checkWord w
  | .reset, [.num _] => none
  | .parse, [.bytes b] => checkBytes b
  | .rawBuild, [.record r, .bytes b] =>
    if (checkRecordExpr .rawBuild r).isNone then checkBytes b else checkRecordExpr .rawBuild r
  | .fbBuild, [.record r, .bytes b] =>
    if (checkRecordExpr .fbBuild r).isNone then checkBytes b else checkRecordExpr .fbBuild r
  | .wrBuild, [.record r, .bytes b] =>
    if (checkRecordExpr .wrBuild r).isNone then checkBytes b else checkRecordExpr .wrBuild r
  | .errpBuild, [.record r] => checkRecordExpr .errpBuild r
  | .buildFrame, [.bytes (.named _), .record r] => checkRecordExpr .buildFrame r
  | _, _ => some .operandForm

/-- The selector and form of a mnemonic: rule R45's, or RAW.BUILDFRAME, which expands to RAW.BUILD (R48). -/
def lookupMnemonic (m : String) : Option (Sel × LineForm) :=
  if m = "RAW.BUILDFRAME" then some (0x2001, .buildFrame) else opTable.lookup m

/-- The syntax error of a line, if it has one (R47). -/
def checkLine (l : Line) : Option SyntaxError :=
  match lookupMnemonic l.mnemonic with
  | none => some .unknownMnemonic
  | some (_, form) => checkOperands form l.operands

/-! ## The request of a line -/

/-- The results that earlier lines of the program bound to names, the latest first (R47). -/
abbrev Bindings := List (String × Result)

/-- The byte string a result carries: a frame, a built envelope, or a parsed payload (R47). -/
def resultBytes : Result → Option Bytes
  | .complete bs _ => some bs
  | .built bs => some bs
  | .rawParsed _ p _ => some p
  | .fbParsed _ p _ => some p
  | .wrParsed _ p _ => some p
  | _ => none

/-- The byte string of an operand (R47). -/
def bytesValue (env : Bindings) : BytesExpr → Except SyntaxError Bytes
  | .lit bs => .ok (bs.map (BitVec.ofNat 8))
  | .zeros n => .ok (zeros n)
  | .seq n => .ok (seqBytes n)
  | .named x =>
    match (env.lookup x).bind resultBytes with
    | some bs => .ok bs
    | none => .error (.unboundName x)

/-- The value a record gives a field; `checkRecord` has found one. -/
def recordValue (fs : List (String × NumExpr)) (name : String) (e : Option Enumeration) : Nat :=
  ((fs.lookup name).bind (numValue e)).getD 0

/-- The value a record gives a register field. -/
def regValue (fs : List (String × NumExpr)) (f : RegField) : Nat := recordValue fs (regName f) (regEnum f)

/-- The value a record gives a header field. -/
def hdrValue (fs : List (String × NumExpr)) (f : HdrField) : Nat := recordValue fs (hdrName f) (hdrEnum f)

/-- `in.view` with every kind read from one record: the operation reads its own kind's. -/
def viewOperand (fs : List (String × NumExpr)) : ViewPort where
  status := statusOf (regValue fs)
  frameChar := frameCharOf (regValue fs)
  error := errorOf (regValue fs)
  id := idOf (regValue fs)
  dataSize := dataSizeOf (regValue fs)
  caps := capsOf (regValue fs)
  config := configOf (regValue fs)
  cmd := cmdOf (regValue fs)
  pwrCtl := pwrCtlOf (regValue fs)
  vendorHw := vendorHwOf (regValue fs)
  hwRev := hwRevOf (regValue fs)
  fwRev := fwRevOf (regValue fs)
  compat := compatOf (regValue fs)
  testCtl := testCtlOf (regValue fs)

/-- `in.hdr` with every header read from one record: the operation reads its own envelope's. -/
def headerOperand (r : RecordExpr) : HeaderPort where
  raw := ⟨hdrValue r.fields .dataType, hdrValue r.fields .bufferId, hdrValue r.fields .protocolVer,
    hdrValue r.fields .compatId, hdrValue r.fields .transactionId⟩
  fb := ⟨hdrValue r.fields .feedbackCmdType, hdrValue r.fields .bufferId, hdrValue r.fields .protocolVer,
    hdrValue r.fields .feedbackDataType, hdrValue r.fields .destOffset⟩
  wr := ⟨hdrValue r.fields .writeDataType⟩
  errp := ⟨hdrValue r.fields .errorType, hdrValue r.fields .invalidFrameCharacteristics,
    hdrValue r.fields .microframeIndexInvalid, errorOf (regValue (r.err.getD []))⟩

/-- The request with selector `sel` and a byte-string operand, once the byte string has a value. -/
def withBytes (env : Bindings) (r : Request) (b : BytesExpr) : Except SyntaxError Request :=
  match bytesValue env b with
  | .ok bs => .ok { r with bytes := bs }
  | .error e => .error e

/-- The request of a well-formed line's operands (R43, R47, R48). -/
def assembleOperands (env : Bindings) (sel : Sel) (form : LineForm) (ops : List Operand) :
    Except SyntaxError Request :=
  let r := Request.ofSel sel
  match form, ops with
  | .regDecode, [.num w] => .ok { r with word := BitVec.ofNat 32 w }
  | .classify, [.num w] => .ok { r with word := BitVec.ofNat 32 w }
  | .validate, [.num w, .num p] => .ok { r with word := BitVec.ofNat 32 w, word2 := BitVec.ofNat 32 p }
  | .regEncode _, [.record v] => .ok { r with view := viewOperand v.fields }
  | .push, [.num d, .num w, .bytes b] => withBytes env { r with dev := d, word := BitVec.ofNat 32 w } b
  | .reset, [.num d] => .ok { r with dev := d }
  | .parse, [.bytes b] => withBytes env r b
  | .errpBuild, [.record v] => .ok { r with hdr := headerOperand v }
  | .buildFrame, [.bytes (.named x), .record v] =>
    match env.lookup x with
    | some (.complete bs hid) =>
      .ok (encode (rawBuildFrame bs hid (hdrValue v.fields .bufferId) (hdrValue v.fields .protocolVer)
        (hdrValue v.fields .compatId) (hdrValue v.fields .transactionId)))
    | _ => .error (.unboundName x)
  | _, [.record v, .bytes b] => withBytes env { r with hdr := headerOperand v } b
  | _, _ => .error .operandForm

/-- The request of a line (R47): its syntax error, or the request of its operands. -/
def assemble (env : Bindings) (l : Line) : Except SyntaxError Request :=
  match checkLine l, lookupMnemonic l.mnemonic with
  | none, some (sel, form) => assembleOperands env sel form l.operands
  | some e, _ => .error e
  | none, none => .error .unknownMnemonic

end Sys2Proof.Machine
end

