-- ==== Sys2Proof/Machine/Program.lean ====
section
/-! DEFINITION. Programs (R47, R164): a finite list of lines, each assembled to a request that is issued after the
response to the one before it; and the bring-up order the spec recommends (R157). -/

namespace Sys2Proof.Machine

/-- The bindings after a line: its name, if it has one and the response is an `Ok` result that carries a byte
string, is bound to that result (R47). -/
def bindResult (env : Bindings) (name : Option String) (resp : Option Response) : Bindings :=
  match name, resp with
  | some x, some (.ok r) => if (resultBytes r).isSome then (x, r) :: env else env
  | _, _ => env

/-- One line: the request is issued and the block takes one step. -/
def runLine (env : Bindings) (s : State) (l : Line) : Except SyntaxError (Bindings × State) :=
  match assemble env l with
  | .error e => .error e
  | .ok r =>
    match step { s with pending := r :: s.pending } with
    | .next s' => .ok (bindResult env l.bind s'.responses.getLast?, s')
    | .fault f => nomatch f
    | .refused _ => .ok (env, s)

/-- A run of a program (R164): it ends after the response to the last request, and its observation is the
response log and the instances of the state it ends in. -/
def runProgram (env : Bindings) (s : State) : List Line → Except SyntaxError State
  | [] => .ok s
  | l :: ls =>
    match runLine env s l with
    | .error e => .error e
    | .ok (env', s') => runProgram env' s' ls

/-- The recommended bring-up of a device (R157, D48) over the words the host reads from it: it stops after a
wrong Identification, and after a Status snapshot with a sync mismatch. The Configuration is written with
touch disabled, then enabled (R158); the last request is FRAME.RESET. No rule of the block enforces it. -/
def bringUp (dev : Nat) (idWord statusWord dataSizeWord capsWord compatWord : Word) (config : ConfigView)
    (powerWord : Word) : List Instr :=
  .regDecodeId idWord ::
    if idMismatch idWord then []
    else .stateClassify statusWord ::
      if syncMismatch statusWord then []
      else
        [.regDecodeDataSize dataSizeWord, .regDecodeCaps capsWord, .regDecodeCompat compatWord,
          .regEncodeConfig { config with touchEnable := 0 }, .regEncodeConfig { config with touchEnable := 1 },
          .statePwrval statusWord powerWord, .regEncodePwrCtl (decodePwrCtl powerWord), .frameReset dev]

end Sys2Proof.Machine
end

