-- ==== Sys2Proof/Safety.lean ====
section
/-! DEFINITION. What the claims are about: the spec's notations `LE32`, `bytesLE32` (R13) and `fc` (section 2.4 of
`95_test_vectors.md`), written without the model's operations; the invariant of the Frame Reassembler instances
(R21, R22); and the rules of the host model (R158 to R160), which the block does not enforce. -/

namespace Sys2Proof.Machine

/-- `LE32(B, i)` (R13); a byte beyond the end, which no rule reads, counts 0. -/
def le32 (B : Bytes) (i : Nat) : Nat :=
  (B.getD i 0).toNat + 256 * (B.getD (i + 1) 0).toNat + 65536 * (B.getD (i + 2) 0).toNat +
    16777216 * (B.getD (i + 3) 0).toNat

/-- `bytesLE32(v)` (R13). -/
def bytesLe32 (v : Nat) : Bytes :=
  [BitVec.ofNat 8 v, BitVec.ofNat 8 (v / 256), BitVec.ofNat 8 (v / 65536), BitVec.ofNat 8 (v / 16777216)]

/-- `fc(size, mfpf, index, hid)`: the Frame Characteristics word of these fields (R51). -/
def fcWord (size mfpf index hid : Nat) : Word :=
  BitVec.ofNat 32 (size + mfpf * 2 ^ 18 + index * 2 ^ 23 + hid * 2 ^ 28)

/-- The invariant of one instance (R21, R22). -/
def Reassembler.Inv (R : Reassembler) : Prop :=
  match R.phase with
  | .collecting =>
    1 ≤ R.last ∧ R.last < R.mfpf ∧ R.mfpf ≤ 31 ∧ R.buf.length = R.last * R.mfs ∧ R.buf.length ≤ 32768 ∧
      R.mfs ≤ 262143 ∧ R.hid ≤ 1
  | .idle => R = Reassembler.reset
  | .faulted => R = { Reassembler.reset with phase := .faulted }

/-- Every instance satisfies the invariant (R22). -/
def State.Inv (s : State) : Prop := ∀ R ∈ s.instances, R.Inv

/-! ## The host's rules

The host owns the bus and the device. These predicates say which of its moves the spec allows; the block sees
none of them (R5, R41), and a move they forbid is no move of the host model (R158, I4). -/

/-- A Configuration write the host may issue (R158): `old` is the word the device's register holds, `new` the
word written. Changing any field but `touch_enable` needs touch disabled before and in the written word. -/
def hostMayWriteConfig (old new : Word) : Bool :=
  let o := decodeConfig old
  let n := decodeConfig new
  (o.dhpm == n.dhpm && o.bulkXferSize == n.bulkXferSize && o.freqSelect == n.freqSelect) ||
    (o.touchEnable == 0 && n.touchEnable == 0)

/-- The host may start a bus transaction with a device (R159): none is outstanding, and a data-window access or
a register write also needs the latest Status snapshot not busy. DESIGN CHOICE (assumption 16): the busy bit is read
raw, whatever the sync byte of `latest`. This is R159 alone; a host that decides a start on a snapshot acts on its
fields, so by R160 `hostMayAct latest` must hold as well, and `hostMayStart` does not include it. -/
def hostMayStart (outstanding windowOrWrite : Bool) (latest : Word) : Bool :=
  !outstanding && (!windowOrWrite || (decodeStatus latest).busy == 0)

/-- The host may act on the fields of a Status snapshot (R160). -/
def hostMayAct (status : Word) : Bool := !syncMismatch status

end Sys2Proof.Machine
end

