-- ==== Sys2Proof/Certificates/Slice0/Obligations.lean ====
section
/-! DEFINITION. The statements for the provers. Each names the rules it formalises. Bit slices are written as R11
writes them, `w[hi:lo] = w / 2^lo mod 2^(hi-lo+1)`, and byte strings with R13's `LE32` and `bytesLE32`, not with the
operations the machine is built from; every next state is written out whole, so each statement of a result is also
the frame of its instruction. -/

open Sys2Proof Sys2Proof.Machine

/-- For each of the 41 instructions i with any operands, the decoder reads i from the request the encoder writes
for it. (R43, R44, R45) -/
def Obligations.DecodeOfEncodeIsTheInstruction : Prop :=
  ∀ i : Instr, decode (encode i) = .ok i

/-- A sanity check of the decoder on words of each class: 0x0100, 0x0240, 0x1000, 0x2101, 0x2300, 0x3002 decode
to the operation R45 lists, and 0x010C to none. (R45, 30_encoding.md) -/
def Obligations.SelectorWordsDecodeAsListed : Prop :=
  decodeTableWord 16 0x0100 = some (.regDecodeStatus 0) ∧ decodeTableWord 16 0x0240 = some (.regEncodeTestCtl ⟨0⟩) ∧
    decodeTableWord 16 0x1000 = some (.framePush 0 0 []) ∧
      decodeTableWord 16 0x2101 = some (.fbBuild ⟨0, 0, 0, 0, 0⟩ []) ∧
    decodeTableWord 16 0x2300 = some (.errpParse []) ∧ decodeTableWord 16 0x3002 = some (.stateCmdval 0 0) ∧
    decodeTableWord 16 0x010C = none

/-- A request whose selector is one of the 41 of R45 decodes to an instruction with that selector. Any other
selector is answered, whatever its operands, by UnknownRegister(sel[7:0]) for class 0x01 or 0x02 and by
UnknownOperation(sel) for every other class; the request leaves the queue and no other state changes. (R46) -/
def Obligations.SelectorsAreLegalOrAnsweredByTheirError : Prop :=
  let legal : List Nat :=
    [0x0100, 0x0104, 0x0108, 0x0110, 0x0114, 0x0118, 0x011C, 0x0120, 0x0124, 0x0128, 0x012C, 0x0130, 0x0134, 0x0140,
     0x0200, 0x0204, 0x0208, 0x0210, 0x0214, 0x0218, 0x021C, 0x0220, 0x0224, 0x0228, 0x022C, 0x0230, 0x0234, 0x0240,
     0x1000, 0x1001, 0x2000, 0x2001, 0x2100, 0x2101, 0x2200, 0x2201, 0x2300, 0x2301, 0x3000, 0x3001, 0x3002]
  ∀ (s : State) (r : Request) (rest : List Request), s.pending = r :: rest →
    (r.sel.toNat ∈ legal → ∃ i, decode r = .ok i ∧ selectorOf i = r.sel) ∧
    (r.sel.toNat ∉ legal →
      step s = .next
        { s with
          pending := rest,
          responses := s.responses ++
            [.err (if r.sel.toNat / 256 = 1 ∨ r.sel.toNat / 256 = 2 then
                .unknownRegister (BitVec.ofNat 8 (r.sel.toNat % 256))
              else .unknownOperation r.sel)] })

/-- When the oldest pending request decodes to the instruction i, step is exec of i at the state with that
request taken from the queue. Every instruction is well formed by its type. (R40, R43) -/
def Obligations.StepRunsTheDecodedInstruction : Prop :=
  ∀ (s : State) (r : Request) (rest : List Request) (i : Instr), s.pending = r :: rest → decode r = .ok i →
    step s = exec i { s with pending := rest }

/-- The model's choice, assumption 5 (DESIGN CHOICE): with no request pending, step answers the state unchanged.
(70_reset_and_hazards.md R164) -/
def Obligations.StepWithoutRequestChangesNothing : Prop :=
  ∀ s : State, s.pending = [] → step s = .next s

/-- A step with a request pending always answers a next state: that request leaves the queue, exactly one
response is added to the log, and the configuration and the number of instances stay. (R15, R18, R153) -/
def Obligations.EveryRequestGetsOneResponse : Prop :=
  ∀ (s : State) (r : Request) (rest : List Request), s.pending = r :: rest →
    ∃ (t : State) (resp : Response), step s = .next t ∧ t.responses = s.responses ++ [resp] ∧ t.pending = rest ∧
      t.cfg = s.cfg ∧ t.instances.length = s.instances.length

/-- From every state, as many steps as there are pending requests end in a next state with nothing pending and
one more response for each request: no run faults, is refused or hangs. (R164, R15) -/
def Obligations.RunsAnswerEveryRequest : Prop :=
  ∀ s : State, ∃ (t : State) (rs : List Response), Sys2Proof.core.run s.pending.length s = .next t ∧ t.pending = [] ∧
      t.responses = s.responses ++ rs ∧ rs.length = s.pending.length

/-- For every instruction but FRAME.PUSH and FRAME.RESET there is one function of the configuration that gives
its response in every state, and exec answers the state with that response added and nothing else changed. (R16,
R36) -/
def Obligations.StatelessUnitsOnlyAnswer : Prop :=
  ∀ i : Instr, (∀ d fc data, i ≠ .framePush d fc data) → (∀ d, i ≠ .frameReset d) →
    ∃ f : Config → Response, ∀ s : State, exec i s = .next { s with responses := s.responses ++ [f s.cfg] }

/-- For every instruction, if its response is an error then every part of the state but the response log is
unchanged, except after a ReassemblyError: then the instruction is a FRAME.PUSH and its instance alone is
Faulted with an empty buffer and zeros. (R142) -/
def Obligations.ErrorsWriteNothingButTheFault : Prop :=
  ∀ (i : Instr) (s t : State) (e : Err), exec i s = .next t → t.responses = s.responses ++ [.err e] →
    t.cfg = s.cfg ∧ t.pending = s.pending ∧
      ((∀ r, e ≠ .reassemblyError r) → t.instances = s.instances) ∧
      (∀ r, e = .reassemblyError r →
        ∃ d fc data, i = .framePush d fc data ∧ d < s.instances.length ∧
          t.instances = s.instances.set d
            { phase := .faulted, buf := [], mfpf := 0, last := 0, mfs := 0, hid := 0 })

/-- For every word REG.DECODE.STATUS completes with sync_mismatch true exactly when bits 31:24 are not 0x5A.
When they are 0x5A, the view is the bit slices of R82 and int_type of 5 or more is Unrecognized. Nothing is
claimed of the fields that accompany a mismatch (R80). Nothing but the response log changes. (R80, R82) -/
def Obligations.RegDecodeStatusResult : Prop :=
  ∀ (w : Word) (s : State), selectorOf (.regDecodeStatus w) = 0x0100 ∧ ∃ (v : StatusView) (u : List Field),
    exec (.regDecodeStatus w) s = .next
      { s with responses := s.responses ++ [.ok (.status v u (decide (w.toNat / 2 ^ 24 ≠ 0x5A)))] } ∧
    (w.toNat / 2 ^ 24 = 0x5A →
      v =
          { intStatus := w.toNat / 2 ^ 0 % 2 ^ 1,
            intType := w.toNat / 2 ^ 1 % 2 ^ 4,
            pwrState := w.toNat / 2 ^ 5 % 2 ^ 2,
            initState := w.toNat / 2 ^ 7 % 2 ^ 2,
            busy := w.toNat / 2 ^ 9 % 2 ^ 1,
            syncByte := w.toNat / 2 ^ 24 % 2 ^ 8 } ∧
      u = if 5 ≤ w.toNat / 2 ^ 1 % 2 ^ 4 then [.reg .intType] else [])

/-- For every word, REG.DECODE.FRAMECHAR and REG.DECODE.ERROR complete with the view of the bit slices R83 and
R84 list, nothing Unrecognized; reserved bits do not matter. Nothing but the response log changes. The ERROR
clause rests on the layout of the Error register that the spec took from general knowledge (D3, 93 entry G1):
assumption 8, PRESUMED; it is replaceable and not a fact of the source. (R83, 40_register_codec.md section 2,
93_implementation_defined.md G1) -/
def Obligations.RegDecodeFrameCharAndErrorResult : Prop :=
  (∀ (w : Word) (s : State), selectorOf (.regDecodeFrameChar w) = 0x0104 ∧ exec (.regDecodeFrameChar w) s = .next
      { s with responses := s.responses ++ [.ok (.frameChar
          { microframeSize := w.toNat / 2 ^ 0 % 2 ^ 18,
            microframesPerFrame := w.toNat / 2 ^ 18 % 2 ^ 5,
            microframeIndex := w.toNat / 2 ^ 23 % 2 ^ 5,
            hidReport := w.toNat / 2 ^ 28 % 2 ^ 1 } [])] }) ∧
  (∀ (w : Word) (s : State), selectorOf (.regDecodeError w) = 0x0108 ∧ exec (.regDecodeError w) s = .next
      { s with responses := s.responses ++ [.ok (.error
          { invalidFw := w.toNat / 2 ^ 0 % 2 ^ 1,
            invalidData := w.toNat / 2 ^ 1 % 2 ^ 1,
            selfTestFailed := w.toNat / 2 ^ 2 % 2 ^ 1,
            fatalError := w.toNat / 2 ^ 15 % 2 ^ 1,
            vendorErrors := w.toNat / 2 ^ 16 % 2 ^ 16 } [])] })

/-- For every word, REG.DECODE.DATASIZE and REG.DECODE.CAPS complete with the view of the bit slices R86 and R87
list and the byte counts, 64 bytes to a unit. Nothing but the response log changes. Both layouts are ones the
spec took from general knowledge (D4 and D5, 93 entries G2 and G3): assumption 8, PRESUMED; they are replaceable
and not facts of the source. (40_register_codec.md section 2, 93_implementation_defined.md G2, G3) -/
def Obligations.RegDecodeDataSizeAndCapsResult : Prop :=
  (∀ (w : Word) (s : State), selectorOf (.regDecodeDataSize w) = 0x0114 ∧ exec (.regDecodeDataSize w) s = .next
      { s with responses := s.responses ++ [.ok (.dataSize
          { maxFrameSize := w.toNat / 2 ^ 0 % 2 ^ 12,
            maxFeedbackSize := w.toNat / 2 ^ 12 % 2 ^ 8 } [] (64 * (w.toNat / 2 ^ 0 % 2 ^ 12)) (64 * (w.toNat / 2 ^ 12 % 2 ^ 8)))] }) ∧
  (∀ (w : Word) (s : State), selectorOf (.regDecodeCaps w) = 0x0118 ∧ exec (.regDecodeCaps w) s = .next
      { s with responses := s.responses ++ [.ok (.caps
          { supported17mhz := w.toNat / 2 ^ 1 % 2 ^ 1,
            supported30mhz := w.toNat / 2 ^ 2 % 2 ^ 1,
            supported50mhz := w.toNat / 2 ^ 3 % 2 ^ 1,
            supportedSingleIo := w.toNat / 2 ^ 8 % 2 ^ 1,
            supportedDualIo := w.toNat / 2 ^ 9 % 2 ^ 1,
            supportedQuadIo := w.toNat / 2 ^ 10 % 2 ^ 1,
            bulkDataMaxWrite := w.toNat / 2 ^ 11 % 2 ^ 6,
            readDelayTimerValue := w.toNat / 2 ^ 17 % 2 ^ 3,
            maxTouchPoints := w.toNat / 2 ^ 24 % 2 ^ 8 } [] (64 * (w.toNat / 2 ^ 11 % 2 ^ 6)))] })

/-- For every word REG.DECODE.ID completes with id_value the whole word and id_mismatch true exactly when it is
not 0x43495424. Nothing but the response log changes. (R85) -/
def Obligations.RegDecodeIdResult : Prop :=
  ∀ (w : Word) (s : State), selectorOf (.regDecodeId w) = 0x0110 ∧ exec (.regDecodeId w) s = .next
      { s with responses := s.responses ++ [.ok (.id { idValue := w.toNat } [] (decide (w ≠ 0x43495424)))] }

/-- For every word, REG.DECODE.CONFIG, REG.DECODE.CMD and REG.DECODE.PWRCTL complete with the bit slices of R88
to R90; an enumerated field at or beyond its MAX is listed as unrecognized, in bit order, and keeps its value.
Nothing but the response log changes. The CONFIG clause rests on a layout the spec took from general knowledge
(D6, 93 entry G4): assumption 8, PRESUMED; the two counts are parameters and are quantified over. (R89, R90,
40_register_codec.md section 2, 93_implementation_defined.md G4) -/
def Obligations.RegDecodeEnumeratedKindsResult : Prop :=
  (∀ (w : Word) (s : State), selectorOf (.regDecodeConfig w) = 0x011C ∧ exec (.regDecodeConfig w) s = .next
      { s with responses := s.responses ++ [.ok (.config
          { touchEnable := w.toNat / 2 ^ 0 % 2 ^ 1,
            dhpm := w.toNat / 2 ^ 1 % 2 ^ 1,
            bulkXferSize := w.toNat / 2 ^ 2 % 2 ^ 4,
            freqSelect := w.toNat / 2 ^ 6 % 2 ^ 3 } ((if s.cfg.bulkCount ≤ w.toNat / 2 ^ 2 % 2 ^ 4 then
              [.reg .bulkXferSize] else []) ++
          (if s.cfg.freqCount ≤ w.toNat / 2 ^ 6 % 2 ^ 3 then [.reg .freqSelect] else [])))] }) ∧
  (∀ (w : Word) (s : State), selectorOf (.regDecodeCmd w) = 0x0120 ∧ exec (.regDecodeCmd w) s = .next
      { s with responses := s.responses ++ [.ok (.cmd
          { commandCode := w.toNat / 2 ^ 0 % 2 ^ 8 } (if 4 ≤ w.toNat / 2 ^ 0 % 2 ^ 8 then
            [.reg .commandCode] else []))] }) ∧
  (∀ (w : Word) (s : State), selectorOf (.regDecodePwrCtl w) = 0x0124 ∧ exec (.regDecodePwrCtl w) s = .next
      { s with responses := s.responses ++ [.ok (.pwrCtl
          { pwrStateCmd := w.toNat / 2 ^ 0 % 2 ^ 3 } (if 5 ≤ w.toNat / 2 ^ 0 % 2 ^ 3 then
            [.reg .pwrStateCmd] else []))] })

/-- For every word, these five operations complete with the view of the bit slices R91 to R95 list, nothing
Unrecognized. Nothing but the response log changes. The VENDORHW clause rests on a split of the word that the
spec took from general knowledge (D9, 93 entry G5): assumption 8, PRESUMED. (R92, R93, R94, R95,
40_register_codec.md section 2, 93_implementation_defined.md G5) -/
def Obligations.RegDecodeRevisionKindsResult : Prop :=
  (∀ (w : Word) (s : State), selectorOf (.regDecodeVendorHw w) = 0x0128 ∧ exec (.regDecodeVendorHw w) s = .next
      { s with responses := s.responses ++ [.ok (.vendorHw
          { vendorId := w.toNat / 2 ^ 0 % 2 ^ 16,
            deviceId := w.toNat / 2 ^ 16 % 2 ^ 16 } [])] }) ∧
  (∀ (w : Word) (s : State), selectorOf (.regDecodeHwRev w) = 0x012C ∧ exec (.regDecodeHwRev w) s = .next
      { s with responses := s.responses ++ [.ok (.hwRev
          { hwRev := w.toNat / 2 ^ 0 % 2 ^ 32 } [])] }) ∧
  (∀ (w : Word) (s : State), selectorOf (.regDecodeFwRev w) = 0x0130 ∧ exec (.regDecodeFwRev w) s = .next
      { s with responses := s.responses ++ [.ok (.fwRev
          { fwRev := w.toNat / 2 ^ 0 % 2 ^ 32 } [])] }) ∧
  (∀ (w : Word) (s : State), selectorOf (.regDecodeCompat w) = 0x0134 ∧ exec (.regDecodeCompat w) s = .next
      { s with responses := s.responses ++ [.ok (.compat
          { minor := w.toNat / 2 ^ 0 % 2 ^ 8,
            major := w.toNat / 2 ^ 8 % 2 ^ 8,
            intfRev := w.toNat / 2 ^ 16 % 2 ^ 8,
            kernelCompatVer := w.toNat / 2 ^ 24 % 2 ^ 8 } [])] }) ∧
  (∀ (w : Word) (s : State), selectorOf (.regDecodeTestCtl w) = 0x0140 ∧ exec (.regDecodeTestCtl w) s = .next
      { s with responses := s.responses ++ [.ok (.testCtl
          { testCtrl := w.toNat / 2 ^ 0 % 2 ^ 32 } [])] })

/-- REG.ENCODE.STATUS. The fields are checked in increasing bit order and the first out of range is answered by
FieldOutOfRange with its name; when none is, the answer is the word with each field at its bits and 0 in every
reserved bit (the fields do not overlap, so the OR of the shifted fields is their sum). Nothing but the response
log changes. (R96) -/
def Obligations.RegEncodeStatusResult : Prop :=
  (∀ (v : StatusView) (s : State), selectorOf (.regEncodeStatus v) = 0x0200 ∧ exec (.regEncodeStatus v) s = .next
      { s with responses := s.responses ++
        [if ¬(v.intStatus ≤ 1) then .err (.fieldOutOfRange (.reg .intStatus))
        else if ¬(v.intType ≤ 4) then .err (.fieldOutOfRange (.reg .intType))
        else if ¬(v.pwrState ≤ 3) then .err (.fieldOutOfRange (.reg .pwrState))
        else if ¬(v.initState ≤ 3) then .err (.fieldOutOfRange (.reg .initState))
        else if ¬(v.busy ≤ 1) then .err (.fieldOutOfRange (.reg .busy))
        else if ¬(v.syncByte ≤ 255) then .err (.fieldOutOfRange (.reg .syncByte))
        else .ok (.word (BitVec.ofNat 32 (v.intStatus + v.intType * 2 ^ 1 + v.pwrState * 2 ^ 5 +
          v.initState * 2 ^ 7 + v.busy * 2 ^ 9 + v.syncByte * 2 ^ 24)))] })

/-- REG.ENCODE.FRAMECHAR; the count and the index are 1 to 31 and are not compared. The fields are checked in
increasing bit order and the first out of range is answered by FieldOutOfRange with its name; when none is, the
answer is the word with each field at its bits and 0 in every reserved bit (the fields do not overlap, so the OR
of the shifted fields is their sum). Nothing but the response log changes. (R97) -/
def Obligations.RegEncodeFrameCharResult : Prop :=
  (∀ (v : FrameCharView) (s : State), selectorOf (.regEncodeFrameChar v) = 0x0204 ∧
    exec (.regEncodeFrameChar v) s = .next
      { s with responses := s.responses ++
        [if ¬(v.microframeSize ≤ 262143) then .err (.fieldOutOfRange (.reg .microframeSize))
        else if ¬(1 ≤ v.microframesPerFrame ∧ v.microframesPerFrame ≤ 31) then
          .err (.fieldOutOfRange (.reg .microframesPerFrame))
        else if ¬(1 ≤ v.microframeIndex ∧ v.microframeIndex ≤ 31) then .err (.fieldOutOfRange (.reg .microframeIndex))
        else if ¬(v.hidReport ≤ 1) then .err (.fieldOutOfRange (.reg .hidReport))
        else .ok (.word (BitVec.ofNat 32 (v.microframeSize + v.microframesPerFrame * 2 ^ 18 +
          v.microframeIndex * 2 ^ 23 + v.hidReport * 2 ^ 28)))] })

/-- REG.ENCODE.ERROR. The fields are checked in increasing bit order and the first out of range is answered by
FieldOutOfRange with its name; when none is, the answer is the word with each field at its bits and 0 in every
reserved bit (the fields do not overlap, so the OR of the shifted fields is their sum). Nothing but the response
log changes. The bit positions are the layout the spec took from general knowledge (D3, 93 entry G1): assumption
8, PRESUMED. (40_register_codec.md section 3, 93_implementation_defined.md G1) -/
def Obligations.RegEncodeErrorResult : Prop :=
  (∀ (v : ErrorView) (s : State), selectorOf (.regEncodeError v) = 0x0208 ∧ exec (.regEncodeError v) s = .next
      { s with responses := s.responses ++
        [if ¬(v.invalidFw ≤ 1) then .err (.fieldOutOfRange (.reg .invalidFw))
        else if ¬(v.invalidData ≤ 1) then .err (.fieldOutOfRange (.reg .invalidData))
        else if ¬(v.selfTestFailed ≤ 1) then .err (.fieldOutOfRange (.reg .selfTestFailed))
        else if ¬(v.fatalError ≤ 1) then .err (.fieldOutOfRange (.reg .fatalError))
        else if ¬(v.vendorErrors ≤ 65535) then .err (.fieldOutOfRange (.reg .vendorErrors))
        else .ok (.word (BitVec.ofNat 32 (v.invalidFw + v.invalidData * 2 ^ 1 + v.selfTestFailed * 2 ^ 2 +
          v.fatalError * 2 ^ 15 + v.vendorErrors * 2 ^ 16)))] })

/-- The four kinds of one 32-bit field. The fields are checked in increasing bit order and the first out of
range is answered by FieldOutOfRange with its name; when none is, the answer is the word with each field at its
bits and 0 in every reserved bit (the fields do not overlap, so the OR of the shifted fields is their sum).
Nothing but the response log changes. (R99, R106, R107, R109) -/
def Obligations.RegEncodeWholeWordKindsResult : Prop :=
  (∀ (v : IdView) (s : State), selectorOf (.regEncodeId v) = 0x0210 ∧ exec (.regEncodeId v) s = .next
      { s with responses := s.responses ++
        [if ¬(v.idValue ≤ 4294967295) then .err (.fieldOutOfRange (.reg .idValue))
        else .ok (.word (BitVec.ofNat 32 (v.idValue)))] }) ∧
  (∀ (v : HwRevView) (s : State), selectorOf (.regEncodeHwRev v) = 0x022C ∧ exec (.regEncodeHwRev v) s = .next
      { s with responses := s.responses ++
        [if ¬(v.hwRev ≤ 4294967295) then .err (.fieldOutOfRange (.reg .hwRev))
        else .ok (.word (BitVec.ofNat 32 (v.hwRev)))] }) ∧
  (∀ (v : FwRevView) (s : State), selectorOf (.regEncodeFwRev v) = 0x0230 ∧ exec (.regEncodeFwRev v) s = .next
      { s with responses := s.responses ++
        [if ¬(v.fwRev ≤ 4294967295) then .err (.fieldOutOfRange (.reg .fwRev))
        else .ok (.word (BitVec.ofNat 32 (v.fwRev)))] }) ∧
  (∀ (v : TestCtlView) (s : State), selectorOf (.regEncodeTestCtl v) = 0x0240 ∧ exec (.regEncodeTestCtl v) s = .next
      { s with responses := s.responses ++
        [if ¬(v.testCtrl ≤ 4294967295) then .err (.fieldOutOfRange (.reg .testCtrl))
        else .ok (.word (BitVec.ofNat 32 (v.testCtrl)))] })

/-- REG.ENCODE.DATASIZE and REG.ENCODE.VENDORHW. The fields are checked in increasing bit order and the first
out of range is answered by FieldOutOfRange with its name; when none is, the answer is the word with each field
at its bits and 0 in every reserved bit (the fields do not overlap, so the OR of the shifted fields is their
sum). Nothing but the response log changes. Both layouts are ones the spec took from general knowledge (D4 and
D9, 93 entries G2 and G5): assumption 8, PRESUMED. (40_register_codec.md section 3, 93_implementation_defined.md
G2, G5) -/
def Obligations.RegEncodeTwoFieldKindsResult : Prop :=
  (∀ (v : DataSizeView) (s : State), selectorOf (.regEncodeDataSize v) = 0x0214 ∧
    exec (.regEncodeDataSize v) s = .next
      { s with responses := s.responses ++
        [if ¬(v.maxFrameSize ≤ 4095) then .err (.fieldOutOfRange (.reg .maxFrameSize))
        else if ¬(v.maxFeedbackSize ≤ 255) then .err (.fieldOutOfRange (.reg .maxFeedbackSize))
        else .ok (.word (BitVec.ofNat 32 (v.maxFrameSize + v.maxFeedbackSize * 2 ^ 12)))] }) ∧
  (∀ (v : VendorHwView) (s : State), selectorOf (.regEncodeVendorHw v) = 0x0228 ∧
    exec (.regEncodeVendorHw v) s = .next
      { s with responses := s.responses ++
        [if ¬(v.vendorId ≤ 65535) then .err (.fieldOutOfRange (.reg .vendorId))
        else if ¬(v.deviceId ≤ 65535) then .err (.fieldOutOfRange (.reg .deviceId))
        else .ok (.word (BitVec.ofNat 32 (v.vendorId + v.deviceId * 2 ^ 16)))] })

/-- REG.ENCODE.CAPS. The fields are checked in increasing bit order and the first out of range is answered by
FieldOutOfRange with its name; when none is, the answer is the word with each field at its bits and 0 in every
reserved bit (the fields do not overlap, so the OR of the shifted fields is their sum). Nothing but the response
log changes. The layout is one the spec took from general knowledge (D5, 93 entry G3): assumption 8, PRESUMED.
(40_register_codec.md section 3, 93_implementation_defined.md G3) -/
def Obligations.RegEncodeCapsResult : Prop :=
  (∀ (v : CapsView) (s : State), selectorOf (.regEncodeCaps v) = 0x0218 ∧ exec (.regEncodeCaps v) s = .next
      { s with responses := s.responses ++
        [if ¬(v.supported17mhz ≤ 1) then .err (.fieldOutOfRange (.reg .supported17mhz))
        else if ¬(v.supported30mhz ≤ 1) then .err (.fieldOutOfRange (.reg .supported30mhz))
        else if ¬(v.supported50mhz ≤ 1) then .err (.fieldOutOfRange (.reg .supported50mhz))
        else if ¬(v.supportedSingleIo ≤ 1) then .err (.fieldOutOfRange (.reg .supportedSingleIo))
        else if ¬(v.supportedDualIo ≤ 1) then .err (.fieldOutOfRange (.reg .supportedDualIo))
        else if ¬(v.supportedQuadIo ≤ 1) then .err (.fieldOutOfRange (.reg .supportedQuadIo))
        else if ¬(v.bulkDataMaxWrite ≤ 63) then .err (.fieldOutOfRange (.reg .bulkDataMaxWrite))
        else if ¬(v.readDelayTimerValue ≤ 7) then .err (.fieldOutOfRange (.reg .readDelayTimerValue))
        else if ¬(v.maxTouchPoints ≤ 255) then .err (.fieldOutOfRange (.reg .maxTouchPoints))
        else .ok (.word (BitVec.ofNat 32 (v.supported17mhz * 2 ^ 1 + v.supported30mhz * 2 ^ 2 +
          v.supported50mhz * 2 ^ 3 + v.supportedSingleIo * 2 ^ 8 + v.supportedDualIo * 2 ^ 9 +
          v.supportedQuadIo * 2 ^ 10 + v.bulkDataMaxWrite * 2 ^ 11 + v.readDelayTimerValue * 2 ^ 17 +
          v.maxTouchPoints * 2 ^ 24)))] })

/-- REG.ENCODE.CONFIG; the two selectors are below BULK_COUNT and FREQ_COUNT and fit their 4 and 3 bits. The
fields are checked in increasing bit order and the first out of range is answered by FieldOutOfRange with its
name; when none is, the answer is the word with each field at its bits and 0 in every reserved bit (the fields
do not overlap, so the OR of the shifted fields is their sum). Nothing but the response log changes. The bit
positions are a layout the spec took from general knowledge (D6, 93 entry G4): assumption 8, PRESUMED; the two
counts are parameters and are quantified over. (40_register_codec.md section 3, 93_implementation_defined.md G4)
-/
def Obligations.RegEncodeConfigResult : Prop :=
  (∀ (v : ConfigView) (s : State), selectorOf (.regEncodeConfig v) = 0x021C ∧ exec (.regEncodeConfig v) s = .next
      { s with responses := s.responses ++
        [if ¬(v.touchEnable ≤ 1) then .err (.fieldOutOfRange (.reg .touchEnable))
        else if ¬(v.dhpm ≤ 1) then .err (.fieldOutOfRange (.reg .dhpm))
        else if ¬(v.bulkXferSize < s.cfg.bulkCount ∧ v.bulkXferSize ≤ 15) then
          .err (.fieldOutOfRange (.reg .bulkXferSize))
        else if ¬(v.freqSelect < s.cfg.freqCount ∧ v.freqSelect ≤ 7) then .err (.fieldOutOfRange (.reg .freqSelect))
        else .ok (.word (BitVec.ofNat 32 (v.touchEnable + v.dhpm * 2 ^ 1 + v.bulkXferSize * 2 ^ 2 +
          v.freqSelect * 2 ^ 6)))] })

/-- REG.ENCODE.CMD and REG.ENCODE.PWRCTL. The fields are checked in increasing bit order and the first out of
range is answered by FieldOutOfRange with its name; when none is, the answer is the word with each field at its
bits and 0 in every reserved bit (the fields do not overlap, so the OR of the shifted fields is their sum).
Nothing but the response log changes. (R103, R104) -/
def Obligations.RegEncodeCommandKindsResult : Prop :=
  (∀ (v : CmdView) (s : State), selectorOf (.regEncodeCmd v) = 0x0220 ∧ exec (.regEncodeCmd v) s = .next
      { s with responses := s.responses ++
        [if ¬(v.commandCode ≤ 3) then .err (.fieldOutOfRange (.reg .commandCode))
        else .ok (.word (BitVec.ofNat 32 (v.commandCode)))] }) ∧
  (∀ (v : PwrCtlView) (s : State), selectorOf (.regEncodePwrCtl v) = 0x0224 ∧ exec (.regEncodePwrCtl v) s = .next
      { s with responses := s.responses ++
        [if ¬(v.pwrStateCmd ≤ 4) then .err (.fieldOutOfRange (.reg .pwrStateCmd))
        else .ok (.word (BitVec.ofNat 32 (v.pwrStateCmd)))] })

/-- REG.ENCODE.COMPAT. The fields are checked in increasing bit order and the first out of range is answered by
FieldOutOfRange with its name; when none is, the answer is the word with each field at its bits and 0 in every
reserved bit (the fields do not overlap, so the OR of the shifted fields is their sum). Nothing but the response
log changes. (R108) -/
def Obligations.RegEncodeCompatResult : Prop :=
  (∀ (v : CompatView) (s : State), selectorOf (.regEncodeCompat v) = 0x0234 ∧ exec (.regEncodeCompat v) s = .next
      { s with responses := s.responses ++
        [if ¬(v.minor ≤ 255) then .err (.fieldOutOfRange (.reg .minor))
        else if ¬(v.major ≤ 255) then .err (.fieldOutOfRange (.reg .major))
        else if ¬(v.intfRev ≤ 255) then .err (.fieldOutOfRange (.reg .intfRev))
        else if ¬(v.kernelCompatVer ≤ 255) then .err (.fieldOutOfRange (.reg .kernelCompatVer))
        else .ok (.word (BitVec.ofNat 32 (v.minor + v.major * 2 ^ 8 + v.intfRev * 2 ^ 16 +
          v.kernelCompatVer * 2 ^ 24)))] })

/-- For each of the 14 register kinds and every view that REG.ENCODE accepts, in every configuration, REG.DECODE
of the word it answers has exactly that view: no bit of a field is dropped, shared or moved. The STATUS clause
holds for every sync byte, a wrong one among them: it is R79's law of packing and slicing, and no claim about
the device rests on it (assumption 6, DEDUCED). (R79) -/
def Obligations.DecodeOfEncodedViewIsTheView : Prop :=
  (∀ (v : StatusView) (w : Word) (s : State), exec (.regEncodeStatus v) s = .next (s.respond (.ok (.word w))) →
      ∃ (u : List Field) (m : Bool), exec (.regDecodeStatus w) s = .next (s.respond (.ok (.status v u m)))) ∧
  (∀ (v : FrameCharView) (w : Word) (s : State), exec (.regEncodeFrameChar v) s = .next (s.respond (.ok (.word w))) →
      ∃ (u : List Field), exec (.regDecodeFrameChar w) s = .next (s.respond (.ok (.frameChar v u)))) ∧
  (∀ (v : ErrorView) (w : Word) (s : State), exec (.regEncodeError v) s = .next (s.respond (.ok (.word w))) →
      ∃ (u : List Field), exec (.regDecodeError w) s = .next (s.respond (.ok (.error v u)))) ∧
  (∀ (v : IdView) (w : Word) (s : State), exec (.regEncodeId v) s = .next (s.respond (.ok (.word w))) →
      ∃ (u : List Field) (m : Bool), exec (.regDecodeId w) s = .next (s.respond (.ok (.id v u m)))) ∧
  (∀ (v : DataSizeView) (w : Word) (s : State), exec (.regEncodeDataSize v) s = .next (s.respond (.ok (.word w))) →
      ∃ (u : List Field) (m n : Nat), exec (.regDecodeDataSize w) s = .next (s.respond (.ok (.dataSize v u m n)))) ∧
  (∀ (v : CapsView) (w : Word) (s : State), exec (.regEncodeCaps v) s = .next (s.respond (.ok (.word w))) →
      ∃ (u : List Field) (m : Nat), exec (.regDecodeCaps w) s = .next (s.respond (.ok (.caps v u m)))) ∧
  (∀ (v : ConfigView) (w : Word) (s : State), exec (.regEncodeConfig v) s = .next (s.respond (.ok (.word w))) →
      ∃ (u : List Field), exec (.regDecodeConfig w) s = .next (s.respond (.ok (.config v u)))) ∧
  (∀ (v : CmdView) (w : Word) (s : State), exec (.regEncodeCmd v) s = .next (s.respond (.ok (.word w))) →
      ∃ (u : List Field), exec (.regDecodeCmd w) s = .next (s.respond (.ok (.cmd v u)))) ∧
  (∀ (v : PwrCtlView) (w : Word) (s : State), exec (.regEncodePwrCtl v) s = .next (s.respond (.ok (.word w))) →
      ∃ (u : List Field), exec (.regDecodePwrCtl w) s = .next (s.respond (.ok (.pwrCtl v u)))) ∧
  (∀ (v : VendorHwView) (w : Word) (s : State), exec (.regEncodeVendorHw v) s = .next (s.respond (.ok (.word w))) →
      ∃ (u : List Field), exec (.regDecodeVendorHw w) s = .next (s.respond (.ok (.vendorHw v u)))) ∧
  (∀ (v : HwRevView) (w : Word) (s : State), exec (.regEncodeHwRev v) s = .next (s.respond (.ok (.word w))) →
      ∃ (u : List Field), exec (.regDecodeHwRev w) s = .next (s.respond (.ok (.hwRev v u)))) ∧
  (∀ (v : FwRevView) (w : Word) (s : State), exec (.regEncodeFwRev v) s = .next (s.respond (.ok (.word w))) →
      ∃ (u : List Field), exec (.regDecodeFwRev w) s = .next (s.respond (.ok (.fwRev v u)))) ∧
  (∀ (v : CompatView) (w : Word) (s : State), exec (.regEncodeCompat v) s = .next (s.respond (.ok (.word w))) →
      ∃ (u : List Field), exec (.regDecodeCompat w) s = .next (s.respond (.ok (.compat v u)))) ∧
  (∀ (v : TestCtlView) (w : Word) (s : State), exec (.regEncodeTestCtl v) s = .next (s.respond (.ok (.word w))) →
      ∃ (u : List Field), exec (.regDecodeTestCtl w) s = .next (s.respond (.ok (.testCtl v u))))

/-- For each of the 14 register kinds and every 32-bit word: REG.ENCODE of the decoded view answers the word
with its reserved bits zeroed when every field is in its encode range, and otherwise FieldOutOfRange of the
lowest field out of range (an Unrecognized value, or a Frame Characteristics count or index of 0). The masks of
ERROR, DATASIZE, CAPS and CONFIG come from layouts the spec took from general knowledge (93 entries G1 to G4):
assumption 8, PRESUMED. The STATUS clause reads fields beside a sync mismatch, as R79 does: it is a law of
slicing and packing, and no claim about the device rests on it (assumption 6, DEDUCED). (R79,
93_implementation_defined.md G1 to G4) -/
def Obligations.EncodeOfDecodedWordZeroesReservedBits : Prop :=
  (∀ (w : Word) (v : StatusView) (u : List Field) (m : Bool) (s : State),
      exec (.regDecodeStatus w) s = .next (s.respond (.ok (.status v u m))) →
      exec (.regEncodeStatus v) s = .next (s.respond
        (if 5 ≤ v.intType then .err (.fieldOutOfRange (.reg .intType)) else .ok (.word (w &&& ~~~0x00FFFC00#32))))) ∧
  (∀ (w : Word) (v : FrameCharView) (u : List Field) (s : State),
      exec (.regDecodeFrameChar w) s = .next (s.respond (.ok (.frameChar v u))) →
      exec (.regEncodeFrameChar v) s = .next (s.respond
        (if v.microframesPerFrame = 0 then .err (.fieldOutOfRange (.reg .microframesPerFrame))
          else if v.microframeIndex = 0 then .err (.fieldOutOfRange (.reg .microframeIndex))
          else .ok (.word (w &&& ~~~0xE0000000#32))))) ∧
  (∀ (w : Word) (v : ErrorView) (u : List Field) (s : State),
      exec (.regDecodeError w) s = .next (s.respond (.ok (.error v u))) →
      exec (.regEncodeError v) s = .next (s.respond
        (.ok (.word (w &&& ~~~0x00007FF8#32))))) ∧
  (∀ (w : Word) (v : IdView) (u : List Field) (m : Bool) (s : State),
      exec (.regDecodeId w) s = .next (s.respond (.ok (.id v u m))) →
      exec (.regEncodeId v) s = .next (s.respond
        (.ok (.word (w &&& ~~~0x00000000#32))))) ∧
  (∀ (w : Word) (v : DataSizeView) (u : List Field) (m n : Nat) (s : State),
      exec (.regDecodeDataSize w) s = .next (s.respond (.ok (.dataSize v u m n))) →
      exec (.regEncodeDataSize v) s = .next (s.respond
        (.ok (.word (w &&& ~~~0xFFF00000#32))))) ∧
  (∀ (w : Word) (v : CapsView) (u : List Field) (m : Nat) (s : State),
      exec (.regDecodeCaps w) s = .next (s.respond (.ok (.caps v u m))) →
      exec (.regEncodeCaps v) s = .next (s.respond
        (.ok (.word (w &&& ~~~0x00F000F1#32))))) ∧
  (∀ (w : Word) (v : ConfigView) (u : List Field) (s : State),
      exec (.regDecodeConfig w) s = .next (s.respond (.ok (.config v u))) →
      exec (.regEncodeConfig v) s = .next (s.respond
        (if s.cfg.bulkCount ≤ v.bulkXferSize then .err (.fieldOutOfRange (.reg .bulkXferSize))
          else if s.cfg.freqCount ≤ v.freqSelect then .err (.fieldOutOfRange (.reg .freqSelect))
          else .ok (.word (w &&& ~~~0xFFFFFE00#32))))) ∧
  (∀ (w : Word) (v : CmdView) (u : List Field) (s : State),
      exec (.regDecodeCmd w) s = .next (s.respond (.ok (.cmd v u))) →
      exec (.regEncodeCmd v) s = .next (s.respond
        (if 4 ≤ v.commandCode then .err (.fieldOutOfRange (.reg .commandCode))
          else .ok (.word (w &&& ~~~0xFFFFFF00#32))))) ∧
  (∀ (w : Word) (v : PwrCtlView) (u : List Field) (s : State),
      exec (.regDecodePwrCtl w) s = .next (s.respond (.ok (.pwrCtl v u))) →
      exec (.regEncodePwrCtl v) s = .next (s.respond
        (if 5 ≤ v.pwrStateCmd then .err (.fieldOutOfRange (.reg .pwrStateCmd))
          else .ok (.word (w &&& ~~~0xFFFFFFF8#32))))) ∧
  (∀ (w : Word) (v : VendorHwView) (u : List Field) (s : State),
      exec (.regDecodeVendorHw w) s = .next (s.respond (.ok (.vendorHw v u))) →
      exec (.regEncodeVendorHw v) s = .next (s.respond
        (.ok (.word (w &&& ~~~0x00000000#32))))) ∧
  (∀ (w : Word) (v : HwRevView) (u : List Field) (s : State),
      exec (.regDecodeHwRev w) s = .next (s.respond (.ok (.hwRev v u))) →
      exec (.regEncodeHwRev v) s = .next (s.respond
        (.ok (.word (w &&& ~~~0x00000000#32))))) ∧
  (∀ (w : Word) (v : FwRevView) (u : List Field) (s : State),
      exec (.regDecodeFwRev w) s = .next (s.respond (.ok (.fwRev v u))) →
      exec (.regEncodeFwRev v) s = .next (s.respond
        (.ok (.word (w &&& ~~~0x00000000#32))))) ∧
  (∀ (w : Word) (v : CompatView) (u : List Field) (s : State),
      exec (.regDecodeCompat w) s = .next (s.respond (.ok (.compat v u))) →
      exec (.regEncodeCompat v) s = .next (s.respond
        (.ok (.word (w &&& ~~~0x00000000#32))))) ∧
  (∀ (w : Word) (v : TestCtlView) (u : List Field) (s : State),
      exec (.regDecodeTestCtl w) s = .next (s.respond (.ok (.testCtl v u))) →
      exec (.regEncodeTestCtl v) s = .next (s.respond
        (.ok (.word (w &&& ~~~0x00000000#32)))))

/-- FRAME.PUSH to an instance that does not exist answers UnknownOperation(0x1000) and changes nothing. To
instance d it answers and writes instance d alone, by the checks of R112 in their order: a Faulted instance
drops an index other than 1; characteristics; data length; then opening a frame, or the comparisons with the
frame being collected; every violation leaves the instance Faulted and empty, every completion leaves it Idle.
(R112) -/
def Obligations.FramePushResult : Prop :=
  ∀ (d : Nat) (fc : Word) (data : Bytes) (s : State), selectorOf (.framePush d fc data) = 0x1000 ∧
    (s.instances.length ≤ d → exec (.framePush d fc data) s = .next
      { s with responses := s.responses ++ [.err (.unknownOperation 0x1000)] }) ∧
    (∀ R, s.instances[d]? = some R →
      let size := fc.toNat % 2 ^ 18
      let n := fc.toNat / 2 ^ 18 % 2 ^ 5
      let i := fc.toNat / 2 ^ 23 % 2 ^ 5
      let hid := fc.toNat / 2 ^ 28 % 2
      let fault := fun (r : ReassemblyReason) =>
        (({ phase := .faulted, buf := [], mfpf := 0, last := 0, mfs := 0, hid := 0 } : Reassembler),
          Response.err (.reassemblyError r))
      let done := fun (bs : Bytes) (h : Nat) =>
        (({ phase := .idle, buf := [], mfpf := 0, last := 0, mfs := 0, hid := 0 } : Reassembler),
          Response.ok (.complete bs h))
      let out : Reassembler × Response :=
        if R.phase = .faulted ∧ i ≠ 1 then (R, .ok .dropped)
        else if n = 0 ∨ i = 0 ∨ n < i then fault .invalidCharacteristics
        else if data.length ≠ size then fault .dataLengthMismatch
        else if R.phase ≠ .collecting then
          if i ≠ 1 then fault .outOfOrder
          else if 32768 < size then fault .oversize
          else if n = 1 then done data hid
          else ({ phase := .collecting, buf := data, mfpf := n, last := 1, mfs := size, hid := hid }, .ok .collecting)
        else if n ≠ R.mfpf then fault .mfpfMismatch
        else if i ≠ R.last + 1 then fault .outOfOrder
        else if size ≠ R.mfs then fault .sizeMismatch
        else if hid ≠ R.hid then fault .hidFlagMismatch
        else if 32768 < R.buf.length + size then fault .oversize
        else if i = R.mfpf then done (R.buf ++ data) R.hid
        else ({ R with buf := R.buf ++ data, last := i }, .ok .collecting)
      exec (.framePush d fc data) s = .next
        { s with instances := s.instances.set d out.1, responses := s.responses ++ [out.2] })

/-- FRAME.RESET of instance d answers ResetDone and writes instance d alone: Idle, empty buffer, zeros. Of an
instance that does not exist it answers UnknownOperation(0x1001) and changes nothing. (R119) -/
def Obligations.FrameResetResult : Prop :=
  ∀ (d : Nat) (s : State), selectorOf (.frameReset d) = 0x1001 ∧
    (d < s.instances.length → exec (.frameReset d) s = .next
      { s with
        instances := s.instances.set d { phase := .idle, buf := [], mfpf := 0, last := 0, mfs := 0, hid := 0 },
        responses := s.responses ++ [.ok .resetDone] }) ∧
    (s.instances.length ≤ d → exec (.frameReset d) s = .next
      { s with responses := s.responses ++ [.err (.unknownOperation 0x1001)] })

/-- In the reset state of any configuration and number of devices, every instance is Idle with an empty buffer
and mfpf, last, mfs and hid 0, and there are that many; State.reset is such a state. (R25, R152) -/
def Obligations.ResetPutsEveryInstanceIdle : Prop :=
  (∀ (cfg : Config) (n : Nat), (State.resetWith cfg n).instances.length = n ∧
      ∀ R ∈ (State.resetWith cfg n).instances, R.phase = .idle ∧ R.buf = [] ∧ R.mfpf = 0 ∧ R.last = 0 ∧ R.mfs = 0 ∧
        R.hid = 0) ∧
    ∃ cfg n, State.reset = State.resetWith cfg n

/-- In two states whose instance d is the same (or absent in both), a FRAME.PUSH or FRAME.RESET of d gives the
same response and the same instance d, whatever the rest of the two states holds, and leaves every other
instance of each as it was. (R23) -/
def Obligations.FrameRequestsTouchTheirInstanceAlone : Prop :=
  ∀ (d : Nat) (fc : Word) (data : Bytes) (i : Instr), i = .framePush d fc data ∨ i = .frameReset d →
    ∀ s s' : State, s.instances[d]? = s'.instances[d]? →
      ∃ (t t' : State) (resp : Response), exec i s = .next t ∧ exec i s' = .next t' ∧
        t.responses = s.responses ++ [resp] ∧ t'.responses = s'.responses ++ [resp] ∧
        t.instances[d]? = t'.instances[d]? ∧
        (∀ e, e ≠ d → t.instances[e]? = s.instances[e]?) ∧ (∀ e, e ≠ d → t'.instances[e]? = s'.instances[e]?)

/-- Two FRAME requests to different instances, run in either order, leave the same instances and give each the
same response. (R40) -/
def Obligations.FrameRequestsToTwoInstancesCommute : Prop :=
  ∀ (d e : Nat) (a b : Instr) (s : State), d ≠ e →
    ((∃ fc data, a = .framePush d fc data) ∨ a = .frameReset d) →
    ((∃ fc data, b = .framePush e fc data) ∨ b = .frameReset e) →
    ∃ (sa sab sb sba : State) (ra rb : Response),
      exec a s = .next sa ∧ exec b sa = .next sab ∧ exec b s = .next sb ∧ exec a sb = .next sba ∧
      sab.instances = sba.instances ∧ sab.responses = s.responses ++ [ra, rb] ∧
      sba.responses = s.responses ++ [rb, ra]

/-- From every state whose instances all satisfy R22 (a Collecting instance has 1 <= last < mfpf <= 31 and a
buffer of last times mfs bytes, at most 32768; an Idle or Faulted one is empty with zeros), a step answers a
next state whose instances all do. (R22, R21) -/
def Obligations.StepKeepsReassemblerInvariant : Prop :=
  ∀ s t : State, s.Inv → step s = .next t → t.Inv

/-- State.reset, and the reset state of every configuration and number of devices, satisfies R22. (R22, R25) -/
def Obligations.ResetHasReassemblerInvariant : Prop :=
  State.reset.Inv ∧ ∀ (cfg : Config) (n : Nat), (State.resetWith cfg n).Inv

/-- For every N in 1..31 and every size with N times size at most 32768, N pushes with indices 1 to N, each of
that size with the same HID flag, to an instance that is Idle or Faulted, give N-1 Collecting responses and then
exactly one Complete carrying the concatenated data of N times size bytes and the flag, and leave the instance
Idle; no other instance, no pending request and no configuration changes. (R120, R116) -/
def Obligations.OrderedMicroFramesYieldOneFrame : Prop :=
  ∀ (s : State) (d : Nat) (R : Reassembler) (size hid : Nat) (chunks : List Bytes) (rest : List Request),
    s.instances[d]? = some R → R.phase = .idle ∨ R.phase = .faulted →
    1 ≤ chunks.length → chunks.length ≤ 31 → (∀ c ∈ chunks, c.length = size) → chunks.length * size ≤ 32768 →
      hid ≤ 1 →
    s.pending = (chunks.mapIdx fun k c => encode (.framePush d (fcWord size chunks.length (k + 1) hid) c)) ++ rest →
    Sys2Proof.core.run chunks.length s = .next
      { s with
        pending := rest,
        instances := s.instances.set d { phase := .idle, buf := [], mfpf := 0, last := 0, mfs := 0, hid := 0 },
        responses := s.responses ++ List.replicate (chunks.length - 1) (.ok .collecting) ++
          [.ok (.complete chunks.flatten hid)] } ∧
      chunks.flatten.length = chunks.length * size

/-- To an instance that is Idle or Faulted, a push of index 1 and then of index 3 of a frame of n >= 3 micro-
frames, with data of the declared lengths, answers Collecting and then ReassemblyError(OutOfOrder) and leaves
the instance Faulted with nothing buffered. (R120, R115, R117) -/
def Obligations.SkippedIndexFaultsTheFrame : Prop :=
  ∀ (s : State) (d : Nat) (R : Reassembler) (n size size' hid hid' : Nat) (c c' : Bytes),
    s.instances[d]? = some R → R.phase = .idle ∨ R.phase = .faulted → 3 ≤ n → n ≤ 31 → hid ≤ 1 → hid' ≤ 1 →
    c.length = size → size ≤ 32768 → c'.length = size' → size' < 2 ^ 18 →
    ∃ t, exec (.framePush d (fcWord size n 1 hid) c) s = .next t ∧
      exec (.framePush d (fcWord size' n 3 hid') c') t = .next
        { s with
          instances := s.instances.set d { phase := .faulted, buf := [], mfpf := 0, last := 0, mfs := 0, hid := 0 },
          responses := s.responses ++ [.ok .collecting, .err (.reassemblyError .outOfOrder)] }

/-- A push of index 1 of 1 with data of the declared size, at most 32768, gives Complete with that data from
Idle and Faulted; from a Collecting instance that satisfies R22 it gives MfpfMismatch and the instance is
Faulted. (R120, R114, R22) -/
def Obligations.SingleMicroFrameCompletesUnlessCollecting : Prop :=
  ∀ (s : State) (d : Nat) (R : Reassembler) (size hid : Nat) (c : Bytes),
    s.instances[d]? = some R → c.length = size → size ≤ 32768 → hid ≤ 1 →
    (R.phase = .idle ∨ R.phase = .faulted → exec (.framePush d (fcWord size 1 1 hid) c) s = .next
      { s with
        instances := s.instances.set d { phase := .idle, buf := [], mfpf := 0, last := 0, mfs := 0, hid := 0 },
        responses := s.responses ++ [.ok (.complete c hid)] }) ∧
    (R.phase = .collecting → R.Inv → exec (.framePush d (fcWord size 1 1 hid) c) s = .next
      { s with
        instances := s.instances.set d { phase := .faulted, buf := [], mfpf := 0, last := 0, mfs := 0, hid := 0 },
        responses := s.responses ++ [.err (.reassemblyError .mfpfMismatch)] })

/-- If exec of any instruction answers Complete(bytes, hid), the instruction is a FRAME.PUSH of the last micro-
frame of its frame with data of the declared size, hid is its flag, and either the frame has one micro-frame,
the instance was not collecting and bytes are its data, or the instance was collecting that frame up to the
micro-frame before, with the same count, size and flag, and bytes are the buffer followed by its data. (R111,
R116) -/
def Obligations.OnlyWholeFramesAreDelivered : Prop :=
  ∀ (i : Instr) (s t : State) (bs : Bytes) (hid : Nat), exec i s = .next t →
    t.responses = s.responses ++ [.ok (.complete bs hid)] →
    ∃ (d : Nat) (fc : Word) (data : Bytes) (R : Reassembler), i = .framePush d fc data ∧ s.instances[d]? = some R ∧
      data.length = fc.toNat % 2 ^ 18 ∧ hid = fc.toNat / 2 ^ 28 % 2 ∧
      fc.toNat / 2 ^ 23 % 2 ^ 5 = fc.toNat / 2 ^ 18 % 2 ^ 5 ∧ bs.length ≤ 32768 ∧
      ((R.phase ≠ .collecting ∧ fc.toNat / 2 ^ 23 % 2 ^ 5 = 1 ∧ bs = data) ∨
        (R.phase = .collecting ∧ fc.toNat / 2 ^ 23 % 2 ^ 5 = R.last + 1 ∧ fc.toNat / 2 ^ 18 % 2 ^ 5 = R.mfpf ∧
          data.length = R.mfs ∧ hid = R.hid ∧ bs = R.buf ++ data))

/-- For every input RAW.PARSE answers, in this order: TruncatedHeader below 64 bytes; TruncatedPayload;
LengthMismatch unless trailing bytes are allowed; VersionIncompatible with both fields found; otherwise the
header words little-endian at their offsets (the compatibility id a word or, when configured, a byte), the
reserved bytes as they stand, exactly the declared payload, and data_type Unrecognized from 5. Nothing but the
response log changes. (R124) -/
def Obligations.RawParseResult : Prop :=
  ∀ (B : Bytes) (s : State), selectorOf (.rawParse B) = 0x2000 ∧
    let compat := if s.cfg.compatIdBytes = .four then le32 B 16 else (B.getD 16 0).toNat
    let reserved := if s.cfg.compatIdBytes = .four then (B.drop 20).take 12 else (B.drop 17).take 15
    exec (.rawParse B) s = .next
      { s with responses := s.responses ++
        [if B.length < 64 then .err (.truncatedHeader B.length 64)
        else if B.length - 64 < le32 B 4 then .err (.truncatedPayload (B.length - 64) (le32 B 4))
        else if le32 B 4 < B.length - 64 ∧ s.cfg.allowTrailingBytes = false then
          .err (.lengthMismatch (B.length - 64) (le32 B 4))
        else if le32 B 12 ≠ s.cfg.hostProtocolVer.toNat ∨ compat ≠ s.cfg.hostCompatId.toNat then
          .err (.versionIncompatible (le32 B 12) (some compat))
        else .ok (.rawParsed
          { dataType := le32 B 0, payloadSize := le32 B 4, bufferId := le32 B 8, protocolVer := le32 B 12,
            compatId := compat, reserved := reserved, transactionId := le32 B 32,
            privReserved := (B.drop 36).take 28 }
          ((B.drop 64).take (le32 B 4)) (if 5 ≤ le32 B 0 then [.hdr .dataType] else []))] }

/-- RAW.BUILD, whole. The clause for a payload of 2^32 bytes or more is the model's reading of R12's last
sentences (assumption 7, DEDUCED). (R125, R122, R12) -/
def Obligations.RawBuildResult : Prop :=
  ∀ (h : RawHeader) (P : Bytes) (s : State), selectorOf (.rawBuild h P) = 0x2001 ∧
    let compatLimit := if s.cfg.compatIdBytes = .four then 2 ^ 32 else 256
    let compatAndPadding : Bytes :=
      if s.cfg.compatIdBytes = .four then bytesLe32 h.compatId ++ List.replicate 12 0
      else BitVec.ofNat 8 h.compatId :: List.replicate 15 0
    let max :=
      if h.dataType = 0 then 32768 else if h.dataType = 1 then s.cfg.maxRawOther.error
      else if h.dataType = 2 then s.cfg.maxRawOther.vendorData
      else if h.dataType = 3 then s.cfg.maxRawOther.hidReport else s.cfg.maxRawOther.getFeatures
    exec (.rawBuild h P) s = .next
      { s with responses := s.responses ++
        [if ¬h.dataType < 5 then .err (.fieldOutOfRange (.hdr .dataType))
        else if ¬h.bufferId < 2 ^ 32 then .err (.fieldOutOfRange (.hdr .bufferId))
        else if ¬h.protocolVer < 2 ^ 32 then .err (.fieldOutOfRange (.hdr .protocolVer))
        else if ¬h.compatId < compatLimit then .err (.fieldOutOfRange (.hdr .compatId))
        else if ¬h.transactionId < 2 ^ 32 then .err (.fieldOutOfRange (.hdr .transactionId))
        else if max < P.length then .err (.payloadTooLarge P.length max)
        else if 2 ^ 32 ≤ P.length then .err (.fieldOutOfRange (.hdr .payloadSize))
        else .ok (.built (bytesLe32 h.dataType ++ bytesLe32 P.length ++ bytesLe32 h.bufferId ++
          bytesLe32 h.protocolVer ++ compatAndPadding ++ bytesLe32 h.transactionId ++ List.replicate 28 0 ++ P))] }

/-- For every input FB.PARSE answers, in this order: TruncatedHeader below 64 bytes; TruncatedPayload;
LengthMismatch unless trailing bytes are allowed; VersionIncompatible with the protocol version found; otherwise
the header words little-endian at their offsets, the 40 reserved bytes as they stand, exactly the declared
payload, and the Unrecognized fields. Neither the window nor the payload maximum is checked. Nothing but the
response log changes. (R126) -/
def Obligations.FbParseResult : Prop :=
  ∀ (B : Bytes) (s : State), selectorOf (.fbParse B) = 0x2100 ∧ exec (.fbParse B) s = .next
      { s with responses := s.responses ++
        [if B.length < 64 then .err (.truncatedHeader B.length 64)
        else if B.length - 64 < le32 B 4 then .err (.truncatedPayload (B.length - 64) (le32 B 4))
        else if le32 B 4 < B.length - 64 ∧ s.cfg.allowTrailingBytes = false then
          .err (.lengthMismatch (B.length - 64) (le32 B 4))
        else if le32 B 12 ≠ s.cfg.hostProtocolVer.toNat then .err (.versionIncompatible (le32 B 12) none)
        else .ok (.fbParsed
          { feedbackCmdType := le32 B 0, payloadSize := le32 B 4, bufferId := le32 B 8, protocolVer := le32 B 12,
            feedbackDataType := le32 B 16, destOffset := le32 B 20, reserved := (B.drop 24).take 40 }
          ((B.drop 64).take (le32 B 4))
          ((if 7 ≤ le32 B 0 then [.hdr .feedbackCmdType] else []) ++
            (if 5 ≤ le32 B 16 then [.hdr .feedbackDataType] else [])))] }

/-- FB.BUILD checks feedback_cmd_type (below 7), buffer_id, protocol_ver, feedback_data_type (below 5) and
dest_offset in that order, then the payload against 16384, then the window: dest_offset at least 0x1000 and
dest_offset plus length at most 0x1FFFF on unbounded naturals; otherwise it answers the 64-byte header, little-
endian with 40 zero bytes and the length computed, followed by the payload. Nothing but the response log
changes. (R127) -/
def Obligations.FbBuildResult : Prop :=
  ∀ (h : FbHeader) (P : Bytes) (s : State), selectorOf (.fbBuild h P) = 0x2101 ∧ exec (.fbBuild h P) s = .next
      { s with responses := s.responses ++
        [if ¬h.feedbackCmdType < 7 then .err (.fieldOutOfRange (.hdr .feedbackCmdType))
        else if ¬h.bufferId < 2 ^ 32 then .err (.fieldOutOfRange (.hdr .bufferId))
        else if ¬h.protocolVer < 2 ^ 32 then .err (.fieldOutOfRange (.hdr .protocolVer))
        else if ¬h.feedbackDataType < 5 then .err (.fieldOutOfRange (.hdr .feedbackDataType))
        else if ¬h.destOffset < 2 ^ 32 then .err (.fieldOutOfRange (.hdr .destOffset))
        else if 16384 < P.length then .err (.payloadTooLarge P.length 16384)
        else if h.destOffset < 0x1000 ∨ 0x1FFFF < h.destOffset + P.length then
          .err (.offsetOutOfRange h.destOffset P.length)
        else .ok (.built (bytesLe32 h.feedbackCmdType ++ bytesLe32 P.length ++ bytesLe32 h.bufferId ++
          bytesLe32 h.protocolVer ++ bytesLe32 h.feedbackDataType ++ bytesLe32 h.destOffset ++
          List.replicate 40 0 ++ P))] }

/-- For every input WR.PARSE answers TruncatedHeader below 8 bytes, TruncatedPayload, LengthMismatch unless
trailing bytes are allowed, or the two header words, exactly the declared payload, and write_data_type
Unrecognized from 7. There is no version check. Nothing but the response log changes. (R128) -/
def Obligations.WrParseResult : Prop :=
  ∀ (B : Bytes) (s : State), selectorOf (.wrParse B) = 0x2200 ∧ exec (.wrParse B) s = .next
      { s with responses := s.responses ++
        [if B.length < 8 then .err (.truncatedHeader B.length 8)
        else if B.length - 8 < le32 B 4 then .err (.truncatedPayload (B.length - 8) (le32 B 4))
        else if le32 B 4 < B.length - 8 ∧ s.cfg.allowTrailingBytes = false then
          .err (.lengthMismatch (B.length - 8) (le32 B 4))
        else .ok (.wrParsed { writeDataType := le32 B 0, writeDataLen := le32 B 4 } ((B.drop 8).take (le32 B 4))
          (if 7 ≤ le32 B 0 then [.hdr .writeDataType] else []))] }

/-- WR.BUILD, whole. The clause for a payload of 2^32 bytes or more is the model's reading of R12's last
sentences (assumption 7, DEDUCED). (R129, R122, R12) -/
def Obligations.WrBuildResult : Prop :=
  ∀ (h : WrHeader) (P : Bytes) (s : State), selectorOf (.wrBuild h P) = 0x2201 ∧
    let m := s.cfg.maxWrite
    let max :=
      if h.writeDataType = 0 then m.fwLoad else if h.writeDataType = 1 then m.dataLoad
      else if h.writeDataType = 2 then m.feedback else if h.writeDataType = 3 then m.setFeatures
      else if h.writeDataType = 4 then m.getFeatures else if h.writeDataType = 5 then m.outputReport
      else m.noDataUseDefaults
    exec (.wrBuild h P) s = .next
      { s with responses := s.responses ++
        [if ¬h.writeDataType < 7 then .err (.fieldOutOfRange (.hdr .writeDataType))
        else if max < P.length then .err (.payloadTooLarge P.length max)
        else if 2 ^ 32 ≤ P.length then .err (.fieldOutOfRange (.hdr .writeDataLen))
        else .ok (.built (bytesLe32 h.writeDataType ++ bytesLe32 P.length ++ P))] }

/-- For every input ERRP.PARSE answers TruncatedHeader below 12 bytes, LengthMismatch above 12 unless trailing
bytes are allowed, or the error type byte, the three reserved bytes, the firmware error word with its bits 0 and
1, and the raw Error register copy with its decoded view. Nothing but the response log changes. The decoded
Error view rests on the layout the spec took from general knowledge (D3, 93 entry G1): assumption 8, PRESUMED.
That more than 12 bytes are accepted when trailing bytes are allowed is R130 followed over D23: assumption 15,
DEDUCED. (42_envelopes.md section 5, 93_implementation_defined.md G1) -/
def Obligations.ErrpParseResult : Prop :=
  ∀ (B : Bytes) (s : State), selectorOf (.errpParse B) = 0x2300 ∧ exec (.errpParse B) s = .next
      { s with responses := s.responses ++
        [if B.length < 12 then .err (.truncatedHeader B.length 12)
        else if 12 < B.length ∧ s.cfg.allowTrailingBytes = false then .err (.lengthMismatch B.length 12)
        else .ok (.errpParsed
          { errorType := (B.getD 0 0).toNat, reserved := (B.drop 1).take 3, fwWord := BitVec.ofNat 32 (le32 B 4),
            invalidFrameCharacteristics := le32 B 4 % 2, microframeIndexInvalid := le32 B 4 / 2 % 2,
            errRaw := BitVec.ofNat 32 (le32 B 8),
            err :=
              { invalidFw := le32 B 8 % 2, invalidData := le32 B 8 / 2 % 2, selfTestFailed := le32 B 8 / 4 % 2,
                fatalError := le32 B 8 / 2 ^ 15 % 2, vendorErrors := le32 B 8 / 2 ^ 16 } })] }

/-- ERRP.BUILD checks error_type, the two flags, then the Error view in bit order, and otherwise answers 12
bytes: the type, three zeros, the two flags as a word, and the encoded Error word. Nothing but the response log
changes. The encoded Error word rests on the layout the spec took from general knowledge (D3, 93 entry G1):
assumption 8, PRESUMED. (42_envelopes.md section 5, 93_implementation_defined.md G1) -/
def Obligations.ErrpBuildResult : Prop :=
  ∀ (h : ErrpHeader) (s : State), selectorOf (.errpBuild h) = 0x2301 ∧ exec (.errpBuild h) s = .next
      { s with responses := s.responses ++
        [if ¬h.errorType ≤ 255 then .err (.fieldOutOfRange (.hdr .errorType))
        else if ¬h.invalidFrameCharacteristics ≤ 1 then .err (.fieldOutOfRange (.hdr .invalidFrameCharacteristics))
        else if ¬h.microframeIndexInvalid ≤ 1 then .err (.fieldOutOfRange (.hdr .microframeIndexInvalid))
        else if ¬h.err.invalidFw ≤ 1 then .err (.fieldOutOfRange (.reg .invalidFw))
        else if ¬h.err.invalidData ≤ 1 then .err (.fieldOutOfRange (.reg .invalidData))
        else if ¬h.err.selfTestFailed ≤ 1 then .err (.fieldOutOfRange (.reg .selfTestFailed))
        else if ¬h.err.fatalError ≤ 1 then .err (.fieldOutOfRange (.reg .fatalError))
        else if ¬h.err.vendorErrors ≤ 65535 then .err (.fieldOutOfRange (.reg .vendorErrors))
        else .ok (.built (BitVec.ofNat 8 h.errorType :: List.replicate 3 0 ++
          bytesLe32 (h.invalidFrameCharacteristics + 2 * h.microframeIndexInvalid) ++
          bytesLe32 (h.err.invalidFw + h.err.invalidData * 2 + h.err.selfTestFailed * 4 + h.err.fatalError * 2 ^ 15 +
            h.err.vendorErrors * 2 ^ 16)))] }

/-- For RAW, FB and WR, whenever the build answers bytes (and, for RAW and FB, the version fields built are the
host's), the parse of those bytes answers the header given, the payload's length, all reserved bytes zero, the
payload itself and nothing Unrecognized; ERRP.PARSE of what ERRP.BUILD answers gives its fields back. (R123) -/
def Obligations.ParseOfBuildReturnsHeaderAndPayload : Prop :=
  (∀ (h : RawHeader) (P B : Bytes) (s : State), exec (.rawBuild h P) s = .next (s.respond (.ok (.built B))) →
      h.protocolVer = s.cfg.hostProtocolVer.toNat → h.compatId = s.cfg.hostCompatId.toNat →
      exec (.rawParse B) s = .next (s.respond (.ok (.rawParsed
        { dataType := h.dataType, payloadSize := P.length, bufferId := h.bufferId, protocolVer := h.protocolVer,
          compatId := h.compatId,
          reserved := List.replicate (if s.cfg.compatIdBytes = .four then 12 else 15) 0,
          transactionId := h.transactionId, privReserved := List.replicate 28 0 } P [])))) ∧
  (∀ (h : FbHeader) (P B : Bytes) (s : State), exec (.fbBuild h P) s = .next (s.respond (.ok (.built B))) →
      h.protocolVer = s.cfg.hostProtocolVer.toNat →
      exec (.fbParse B) s = .next (s.respond (.ok (.fbParsed
        { feedbackCmdType := h.feedbackCmdType, payloadSize := P.length, bufferId := h.bufferId,
          protocolVer := h.protocolVer, feedbackDataType := h.feedbackDataType, destOffset := h.destOffset,
          reserved := List.replicate 40 0 } P [])))) ∧
  (∀ (h : WrHeader) (P B : Bytes) (s : State), exec (.wrBuild h P) s = .next (s.respond (.ok (.built B))) →
      exec (.wrParse B) s = .next (s.respond (.ok (.wrParsed
        { writeDataType := h.writeDataType, writeDataLen := P.length } P [])))) ∧
  (∀ (h : ErrpHeader) (B : Bytes) (s : State), exec (.errpBuild h) s = .next (s.respond (.ok (.built B))) →
      ∃ fw raw, exec (.errpParse B) s = .next (s.respond (.ok (.errpParsed
        { errorType := h.errorType, reserved := List.replicate 3 0, fwWord := fw,
          invalidFrameCharacteristics := h.invalidFrameCharacteristics,
          microframeIndexInvalid := h.microframeIndexInvalid, errRaw := raw, err := h.err }))))

/-- With trailing bytes not allowed: when a RAW, FB or WR parse of B answers a header with nothing Unrecognized
and zero reserved bytes, the build of that header and payload answers B, provided the payload is within its
maximum and, for FB, the destination lies in the window. (R123) -/
def Obligations.BuildOfParsedHeaderReturnsTheBytes : Prop :=
  ∀ (B P : Bytes) (s : State), s.cfg.allowTrailingBytes = false →
    (∀ h : RawParsed, exec (.rawParse B) s = .next (s.respond (.ok (.rawParsed h P []))) →
      (∀ b ∈ h.reserved ++ h.privReserved, b = 0) → P.length ≤ rawMax s.cfg h.dataType →
      exec (.rawBuild ⟨h.dataType, h.bufferId, h.protocolVer, h.compatId, h.transactionId⟩ P) s =
        .next (s.respond (.ok (.built B)))) ∧
    (∀ h : FbParsed, exec (.fbParse B) s = .next (s.respond (.ok (.fbParsed h P []))) →
      (∀ b ∈ h.reserved, b = 0) → P.length ≤ 16384 → 0x1000 ≤ h.destOffset → h.destOffset + P.length ≤ 0x1FFFF →
      exec (.fbBuild ⟨h.feedbackCmdType, h.bufferId, h.protocolVer, h.feedbackDataType, h.destOffset⟩ P) s =
        .next (s.respond (.ok (.built B)))) ∧
    (∀ h : WrParsed, exec (.wrParse B) s = .next (s.respond (.ok (.wrParsed h P []))) →
      P.length ≤ writeMax s.cfg h.writeDataType →
      exec (.wrBuild ⟨h.writeDataType⟩ P) s = .next (s.respond (.ok (.built B))))

/-- For every Status snapshot STATE.CLASSIFY completes with sync_mismatch true exactly when the top byte is not
0x5A. When it is 0x5A: the class depends on int_type alone, 5 and above Unrecognized, and pending, power, init
and busy are the snapshot's fields. Nothing is claimed of a mismatched snapshot's fields (R80). Nothing but the
response log changes. (R134, R80) -/
def Obligations.StateClassifyResult : Prop :=
  ∀ (w : Word) (s : State), selectorOf (.stateClassify w) = 0x3000 ∧ ∃ c : Classification,
    exec (.stateClassify w) s = .next { s with responses := s.responses ++ [.ok (.classified c)] } ∧
    c.syncMismatch = decide (w.toNat / 2 ^ 24 ≠ 0x5A) ∧
    (w.toNat / 2 ^ 24 = 0x5A →
      let t := w.toNat / 2 ^ 1 % 2 ^ 4
      let p := w.toNat / 2 ^ 5 % 2 ^ 2
      let q := w.toNat / 2 ^ 7 % 2 ^ 2
      c.intClass = (if t = 0 then .dataAvailable else if t = 1 then .resetOccurred else if t = 2 then .errorOccurred
        else if t = 3 then .vendorData else if t = 4 then .getFeaturesAvailable else .unrecognized t) ∧
      c.pending = w.toNat / 2 ^ 0 % 2 ^ 1 ∧
      c.power = (if p = 0 then .sleep else if p = 1 then .doze else if p = 2 then .armed else .sensing) ∧
      c.init = (if q = 0 then .readyForOp else if q = 1 then .fwNeeded else if q = 2 then .dataNeeded
        else .initError) ∧
      c.busy = w.toNat / 2 ^ 9 % 2 ^ 1)

/-- For every snapshot and requested word STATE.PWRVAL answers an Ok result: Invalid(SyncMismatch) on a bad sync
byte; Invalid(Busy) when busy gates and the device is busy; Accepted(NoChange) for commands 0 and 5 to 7,
flagged for the latter; Invalid(IllegalTransition) when the configuration forbids it; otherwise
Accepted(target), each with the current power state. Bits 31:3 of the request do not matter. Nothing but the
response log changes. (R135) -/
def Obligations.StatePwrvalResult : Prop :=
  ∀ (w p : Word) (s : State), selectorOf (.statePwrval w p) = 0x3001 ∧
    let x := w.toNat / 2 ^ 5 % 2 ^ 2
    let c := p.toNat % 2 ^ 3
    let cur : PwrState := if x = 0 then .sleep else if x = 1 then .doze else if x = 2 then .armed else .sensing
    let tgt : PwrState := if c = 1 then .sleep else if c = 2 then .doze else if c = 3 then .armed else .sensing
    exec (.statePwrval w p) s = .next
      { s with responses := s.responses ++
        [.ok (.pwrValidated
          (if w.toNat / 2 ^ 24 ≠ 0x5A then .invalid .syncMismatch
          else if s.cfg.busyGatesValidate = true ∧ w.toNat / 2 ^ 9 % 2 ^ 1 = 1 then .invalid .busy
          else if c = 0 ∨ 5 ≤ c then .accepted .noChange (decide (5 ≤ c)) cur
          else if (cur, tgt) ∈ s.cfg.powerForbidden then .invalid .illegalTransition
          else .accepted (.state tgt) false cur))] }

/-- For every snapshot and requested word STATE.CMDVAL answers an Ok result: Invalid(SyncMismatch) on a bad sync
byte; Invalid(Busy) when busy gates and the device is busy; Accepted(NoOp) for codes 0 and 4 to 255, flagged for
the latter; Invalid(IllegalTransition) when the configuration forbids the command in the init state; otherwise
Accepted(command). Bits 31:8 of the request do not matter. Nothing but the response log changes. (R136) -/
def Obligations.StateCmdvalResult : Prop :=
  ∀ (w k : Word) (s : State), selectorOf (.stateCmdval w k) = 0x3002 ∧
    let x := w.toNat / 2 ^ 7 % 2 ^ 2
    let c := k.toNat % 2 ^ 8
    let init : InitState :=
      if x = 0 then .readyForOp else if x = 1 then .fwNeeded else if x = 2 then .dataNeeded else .initError
    let cmd : Command := if c = 1 then .softReset else if c = 2 then .prepForRead else .genTestPackets
    exec (.stateCmdval w k) s = .next
      { s with responses := s.responses ++
        [.ok (.cmdValidated
          (if w.toNat / 2 ^ 24 ≠ 0x5A then .invalid .syncMismatch
          else if s.cfg.busyGatesValidate = true ∧ w.toNat / 2 ^ 9 % 2 ^ 1 = 1 then .invalid .busy
          else if c = 0 ∨ 4 ≤ c then .accepted .noOp (decide (4 ≤ c))
          else if (init, cmd) ∈ s.cfg.cmdForbidden then .invalid .illegalTransition
          else .accepted (.command cmd) false))] }

/-- For a name bound to a Complete(bytes, hid) event, a RAW.BUILDFRAME line with the four header fields
assembles to the request of RAW.BUILD with data_type HID_REPORT (3) when hid is 1 and FRAME (0) otherwise, those
fields, and the frame's bytes as payload. (R48, R65) -/
def Obligations.BuildFrameLineExpandsToRawBuild : Prop :=
  ∀ (x : String) (bs : Bytes) (hid b p c t : Nat) (env : Bindings) (bind : Option String),
    assemble ((x, .complete bs hid) :: env)
      { bind := bind, mnemonic := "RAW.BUILDFRAME",
        operands := [.bytes (.named x),
          .record { fields := [("buffer_id", .lit b), ("protocol_ver", .lit p), ("compat_id", .lit c),
            ("transaction_id", .lit t)], err := none }] } =
      .ok (encode (.rawBuild ⟨if hid = 1 then 3 else 0, b, p, c, t⟩ bs))

/-- For every register kind, a line whose mnemonic is that kind's REG.ENCODE and whose record does not name one
of the kind's fields does not assemble to a request, whatever else it names. (R47) -/
def Obligations.MissingViewFieldIsASyntaxError : Prop :=
  ∀ (k : RegKind) (m : String) (sel : Sel) (f : RegField) (fs : List (String × NumExpr))
    (err : Option (List (String × NumExpr))) (bind : Option String) (env : Bindings),
    lookupMnemonic m = some (sel, .regEncode k) → f ∈ fieldsOf k → (∀ e ∈ fs, e.1 ≠ regName f) →
    ∃ e, assemble env { bind := bind, mnemonic := m, operands := [.record { fields := fs, err := err }] } = .error e
end

