-- ==== Sys2Proof/Laws/Bytes.lean ====
section
/-! SUPPORT. Byte strings: what a little-endian read and write give, the read after a write, and the bytes a write
leaves alone. -/

namespace Sys2Proof.Machine

theorem length_zeros (n : Nat) : (zeros n).length = n := List.length_replicate ..

/-! ## Values and strings -/

@[simp] theorem length_leBytes (n v : Nat) : (leBytes n v).length = n := by
  induction n generalizing v with
  | zero => rfl
  | succ n ih => simp [leBytes, ih]

theorem leValue_lt (B : Bytes) : leValue B < 256 ^ B.length := by
  induction B with
  | nil => simp [leValue]
  | cons b B ih =>
    have := b.isLt
    simp only [leValue, List.length_cons, Nat.pow_succ]
    omega

/-- Reading back the bytes of a value gives it modulo their range (R31). -/
theorem leValue_leBytes (n v : Nat) : leValue (leBytes n v) = v % 256 ^ n := by
  induction n generalizing v with
  | zero => simp [leBytes, leValue, Nat.mod_one]
  | succ n ih =>
    rw [leBytes, leValue, ih, BitVec.toNat_ofNat, Nat.pow_succ 256 n, Nat.mul_comm (256 ^ n), Nat.mod_mul]

/-- The bytes of a string's value are the string. -/
theorem leBytes_leValue (B : Bytes) : leBytes B.length (leValue B) = B := by
  induction B with
  | nil => rfl
  | cons b B ih =>
    have hb := b.isLt
    have hdiv : (b.toNat + 256 * leValue B) / 256 = leValue B := by omega
    rw [List.length_cons, leBytes, leValue, hdiv, ih]
    congr 1
    apply BitVec.eq_of_toNat_eq
    rw [BitVec.toNat_ofNat]
    omega

/-- The four bytes of a value, as R13 writes them. -/
theorem leBytes_four (v : Nat) : leBytes 4 v = bytesLe32 v := by
  simp [leBytes, bytesLe32, Nat.div_div_eq_div_mul]

theorem leBytes_one (v : Nat) : leBytes 1 v = [BitVec.ofNat 8 v] := rfl

@[simp] theorem length_bytesLe32 (v : Nat) : (bytesLe32 v).length = 4 := rfl

/-! ## Reads -/

theorem leValue_sub_getD (B : Bytes) (a n : Nat) :
    leValue (sub B a (a + n)) = leValue ((List.range n).map fun k => B.getD (a + k) 0) := by
  rw [sub, Nat.add_sub_cancel_left]
  induction n generalizing a with
  | zero => simp
  | succ n ih =>
    rw [List.range_succ_eq_map, List.map_cons, List.map_map]
    by_cases h : a < B.length
    · rw [List.drop_eq_getElem_cons h, List.take_succ_cons, leValue, leValue, ih (a + 1)]
      congr 2
      · simp [h]
      · congr 2
        funext k
        simp only [Function.comp, Nat.succ_eq_add_one]
        congr 1
        omega
    · have hnil : B.drop a = [] := List.drop_eq_nil_of_le (Nat.not_lt.mp h)
      have hz : ∀ k, B.getD (a + k) 0 = 0 := fun k => by
        simp [List.getD_eq_getElem?_getD, List.getElem?_eq_none (show B.length ≤ a + k by omega)]
      have hall : ∀ l : List Nat, leValue (l.map fun _ => (0 : Byte)) = 0 := by
        intro l
        induction l with
        | nil => rfl
        | cons _ l ih => rw [List.map_cons, leValue, ih]; rfl
      simp only [hnil, List.take_nil, leValue, Function.comp_def, hz, hall]
      rfl

/-- A four-byte read is `LE32` (R13, R31). -/
theorem memRead_four (B : Bytes) (i : Nat) : memRead B i 4 = le32 B i := by
  rw [memRead, leValue_sub_getD]
  simp only [le32, List.range_succ, List.range_zero, List.nil_append, List.cons_append, List.map_cons, List.map_nil,
    leValue, Nat.add_zero]
  omega

/-- A one-byte read is the byte (R14). -/
theorem memRead_one (B : Bytes) (i : Nat) : memRead B i 1 = (B.getD i 0).toNat := by
  rw [memRead, leValue_sub_getD]
  simp [leValue]

theorem le32_lt (B : Bytes) (i : Nat) : le32 B i < 2 ^ 32 := by
  have h0 := (B.getD i 0).isLt
  have h1 := (B.getD (i + 1) 0).isLt
  have h2 := (B.getD (i + 2) 0).isLt
  have h3 := (B.getD (i + 3) 0).isLt
  unfold le32
  omega

/-- `LE32` of `bytesLE32` is the value, when it fits. -/
theorem le32_bytesLe32 {v : Nat} (h : v < 2 ^ 32) (rest : Bytes) : le32 (bytesLe32 v ++ rest) 0 = v := by
  simp [le32, bytesLe32]
  omega

/-- `LE32` beyond a prefix. -/
theorem le32_append_right (A C : Bytes) (i : Nat) : le32 (A ++ C) (A.length + i) = le32 C i := by
  simp [le32, List.getD_eq_getElem?_getD, List.getElem?_append_right, Nat.add_assoc]

/-- `bytesLE32` of `LE32` is the four bytes. -/
theorem bytesLe32_le32 (a b c d : Byte) (rest : Bytes) :
    bytesLe32 (le32 (a :: b :: c :: d :: rest) 0) = [a, b, c, d] := by
  have h : leBytes 4 (leValue [a, b, c, d]) = [a, b, c, d] := leBytes_leValue [a, b, c, d]
  rw [leBytes_four] at h
  rw [← h]
  congr 1
  simp [le32, leValue]
  omega

/-! ## Writes -/

theorem length_overwrite (out : Bytes) (a : Nat) (bs : Bytes) (h : a + bs.length ≤ out.length) :
    (overwrite out a bs).length = out.length := by
  simp [overwrite]
  omega

theorem length_memWrite (out : Bytes) (a n v : Nat) (h : a + n ≤ out.length) :
    (memWrite out a n v).length = out.length := length_overwrite _ _ _ (by simpa using h)

/-- The bytes of a write are those written. -/
theorem getElem?_overwrite_inside (out : Bytes) (a : Nat) (bs : Bytes) (h : a + bs.length ≤ out.length) {k : Nat}
    (hk : k < bs.length) : (overwrite out a bs)[a + k]? = bs[k]? := by
  have ha : (out.take a).length = a := by simp; omega
  rw [overwrite, List.append_assoc, List.getElem?_append_right (by omega), ha, Nat.add_sub_cancel_left,
    List.getElem?_append_left hk]

/-- A write leaves every other byte as it was. -/
theorem getElem?_overwrite_outside (out : Bytes) (a : Nat) (bs : Bytes) (h : a + bs.length ≤ out.length) {k : Nat}
    (hk : k < a ∨ a + bs.length ≤ k) : (overwrite out a bs)[k]? = out[k]? := by
  have ha : (out.take a).length = a := by simp; omega
  rcases hk with hk | hk
  · rw [overwrite, List.append_assoc, List.getElem?_append_left (by omega), List.getElem?_take_of_lt hk]
  · rw [overwrite, List.getElem?_append_right (by simp; omega), List.getElem?_drop]
    congr 1
    simp
    omega

/-- A read of what was just written gives the value, modulo its range (R14, R31). -/
theorem memRead_memWrite (out : Bytes) (a n v : Nat) (h : a + n ≤ out.length) :
    memRead (memWrite out a n v) a n = v % 256 ^ n := by
  rw [← leValue_leBytes, memRead]
  congr 1
  have ha : (out.take a).length = a := by simp; omega
  rw [sub, memWrite, overwrite, List.append_assoc, List.drop_append_of_le_length (by omega),
    List.drop_eq_nil_of_le (by omega), List.nil_append, Nat.add_sub_cancel_left,
    List.take_append_of_le_length (by simp), List.take_of_length_le (by simp)]

end Sys2Proof.Machine
end

