-- ==== Sys2Proof/Laws/State.lean ====
section
/-! SUPPORT. The fields of a state after each update, and what each way of ending an operation answers. -/

namespace Sys2Proof.Machine

@[simp] theorem respond_responses (s : State) (r : Response) : (s.respond r).responses = s.responses ++ [r] := rfl
@[simp] theorem respond_instances (s : State) (r : Response) : (s.respond r).instances = s.instances := rfl
@[simp] theorem respond_cfg (s : State) (r : Response) : (s.respond r).cfg = s.cfg := rfl
@[simp] theorem respond_pending (s : State) (r : Response) : (s.respond r).pending = s.pending := rfl

@[simp] theorem setInstance_instances (s : State) (d : Nat) (R : Reassembler) :
    (s.setInstance d R).instances = s.instances.set d R := rfl
@[simp] theorem setInstance_responses (s : State) (d : Nat) (R : Reassembler) :
    (s.setInstance d R).responses = s.responses := rfl
@[simp] theorem setInstance_cfg (s : State) (d : Nat) (R : Reassembler) : (s.setInstance d R).cfg = s.cfg := rfl
@[simp] theorem setInstance_pending (s : State) (d : Nat) (R : Reassembler) :
    (s.setInstance d R).pending = s.pending := rfl

/-- The response an operation of a stateless unit ends with. -/
def responseTo : Except Err Result → Response
  | .ok r => .ok r
  | .error e => .err e

@[simp] theorem responseTo_ok (r : Result) : responseTo (.ok r) = .ok r := rfl
@[simp] theorem responseTo_error (e : Err) : responseTo (.error e) = .err e := rfl

/-- Everything `finish` can do: one response is added. -/
theorem finish_eq (s : State) (x : Except Err Result) : finish s x = .next (s.respond (responseTo x)) := by
  cases x <;> rfl

/-- Everything `answer` can do. -/
theorem answer_eq (s : State) (r : Result) : answer s r = .next (s.respond (.ok r)) := rfl

/-- Everything `raiseErr` can do. -/
theorem raiseErr_eq (s : State) (e : Err) : raiseErr s e = .next (s.respond (.err e)) := rfl

/-- Two answers of one state are the same answer only if the responses are. -/
theorem respond_inj {s : State} {a b : Response}
    (h : (Host.Outcome.next (s.respond a) : Host.Outcome State Fault Refusal) = .next (s.respond b)) : a = b := by
  injection h with h
  have := congrArg State.responses h
  simpa using this

end Sys2Proof.Machine
end

