-- ==== Sys2Proof/Laws/Fields.lean ====
section
/-! SUPPORT. Bit slices and packed fields: a field read back from a packed word, the bits of a packed word, and
its value as a sum. -/

namespace Sys2Proof.Machine

/-- A bit slice as R11's arithmetic. -/
theorem bits_eq (w : Word) (hi lo : Nat) : bits w hi lo = w.toNat / 2 ^ lo % 2 ^ (hi - lo + 1) := by
  rw [bits, Nat.shiftRight_eq_div_pow]

theorem bits_lt (w : Word) (hi lo : Nat) : bits w hi lo < 2 ^ (hi - lo + 1) := Nat.mod_lt _ (by positivity)

theorem readField_eq (w : Word) (f : RegField) :
    readField w f = w.toNat / 2 ^ fieldLo f % 2 ^ fieldWidth f := bits_eq ..

/-- The field at a place given as numbers. -/
theorem readField_at {f : RegField} {lo n : Nat} (w : Word) (hlo : fieldLo f = lo) (hn : fieldWidth f = n) :
    readField w f = w.toNat / 2 ^ lo % 2 ^ n := by
  rw [readField_eq, hlo, hn]

theorem readField_lt (w : Word) (f : RegField) : readField w f < 2 ^ fieldWidth f := bits_lt ..

/-- The bits of a field are the word's bits at its place. -/
theorem testBit_readField (w : Word) (f : RegField) (j : Nat) :
    (readField w f).testBit j = (decide (j < fieldWidth f) && w.getLsbD (fieldLo f + j)) := by
  rw [readField_eq, Nat.testBit_mod_two_pow, Nat.testBit_div_two_pow, Nat.add_comm]
  rfl

theorem fieldLo_le_fieldHi (f : RegField) : fieldLo f ≤ fieldHi f := by cases f <;> decide

theorem fieldHi_lt (f : RegField) : fieldHi f < 32 := by cases f <;> decide

theorem fieldLo_add_width (f : RegField) : fieldLo f + fieldWidth f = fieldHi f + 1 := by
  have := fieldLo_le_fieldHi f
  unfold fieldWidth
  omega

/-- A word read at a field is the field's value where the field is the whole word. -/
theorem readField_whole (w : Word) (f : RegField) (hlo : fieldLo f = 0) (hhi : fieldHi f = 31) :
    readField w f = w.toNat := by
  rw [readField_eq, fieldWidth, hlo, hhi]
  have := w.isLt
  simpa using Nat.mod_eq_of_lt this

/-! ## Packing -/

/-- Bit `j` of the word is set by the field and value `e`. -/
def setsBit (e : RegField × Nat) (j : Nat) : Bool := decide (fieldLo e.1 ≤ j) && e.2.testBit (j - fieldLo e.1)

theorem getLsbD_insertField (w : Word) (e : RegField × Nat) {j : Nat} (hj : j < 32) :
    (insertField w e).getLsbD j = (w.getLsbD j || setsBit e j) := by
  simp only [insertField, BitVec.getLsbD_or, BitVec.getLsbD_shiftLeft, setsBit, hj, decide_true, Bool.true_and]
  congr 1
  by_cases h : j < fieldLo e.1
  · simp [h, Nat.not_le.mpr h]
  · have hj' : j - fieldLo e.1 < 32 := by omega
    rw [BitVec.getLsbD_ofNat]
    simp [h, Nat.not_lt.mp h, hj']

theorem getLsbD_foldl_insertField (es : List (RegField × Nat)) (w : Word) {j : Nat} (hj : j < 32) :
    (es.foldl insertField w).getLsbD j = (w.getLsbD j || es.any (setsBit · j)) := by
  induction es generalizing w with
  | nil => simp
  | cons e es ih => simp [ih, getLsbD_insertField w e hj, Bool.or_assoc]

/-- The bits of a packed word are those its fields set. -/
theorem getLsbD_packFields (es : List (RegField × Nat)) {j : Nat} (hj : j < 32) :
    (packFields es).getLsbD j = es.any (setsBit · j) := by
  have h := getLsbD_foldl_insertField es 0 hj
  rw [packFields, h]
  simp

/-- Two fields lie apart: one ends below the start of the other. -/
def Apart (f g : RegField) : Prop := fieldHi f < fieldLo g ∨ fieldHi g < fieldLo f

/-- A packed word read at one of its fields gives the field's value, when the values fit and the fields lie
apart. -/
theorem readField_packFields {es : List (RegField × Nat)} {f : RegField} {v : Nat} (hmem : (f, v) ∈ es)
    (hfit : ∀ e ∈ es, e.2 < 2 ^ fieldWidth e.1)
    (hapart : ∀ e ∈ es, e ≠ (f, v) → Apart e.1 f) : readField (packFields es) f = v := by
  apply Nat.eq_of_testBit_eq
  intro k
  rw [testBit_readField]
  by_cases hk : k < fieldWidth f
  · have hlt : fieldLo f + k < 32 := by have := fieldLo_add_width f; have := fieldHi_lt f; omega
    rw [getLsbD_packFields es hlt, decide_eq_true hk, Bool.true_and, Bool.eq_iff_iff, List.any_eq_true]
    constructor
    · rintro ⟨e, he, hset⟩
      by_cases heq : e = (f, v)
      · simpa [heq, setsBit] using hset
      · exfalso
        simp only [setsBit, Bool.and_eq_true, decide_eq_true_eq] at hset
        have hw := fieldLo_add_width e.1
        have hwf := fieldLo_add_width f
        have hle : fieldLo f + k - fieldLo e.1 < fieldWidth e.1 := by
          by_contra hge
          have := Nat.testBit_lt_two_pow (lt_of_lt_of_le (hfit e he)
            (Nat.pow_le_pow_right (by decide) (Nat.not_lt.mp hge)))
          simp [this] at hset
        rcases hapart e he heq with h | h <;> omega
    · intro hv
      exact ⟨(f, v), hmem, by simpa [setsBit] using hv⟩
  · rw [decide_eq_false hk, Bool.false_and]
    exact (Nat.testBit_lt_two_pow (lt_of_lt_of_le (hfit _ hmem)
      (Nat.pow_le_pow_right (by decide) (Nat.not_lt.mp hk)))).symm

/-- The fields of a kind lie apart. -/
theorem fieldsOf_apart (k : RegKind) : ∀ f ∈ fieldsOf k, ∀ g ∈ fieldsOf k, f ≠ g → Apart f g := by
  unfold Apart
  cases k <;> decide

/-- The bits a kind's reserved mask leaves are exactly those its fields cover (R49). -/
theorem reservedMask_spec (k : RegKind) : ∀ j < 32,
    (~~~reservedMask k).getLsbD j = (fieldsOf k).any fun f => decide (fieldLo f ≤ j) && decide (j ≤ fieldHi f) := by
  cases k <;> decide

/-- Packing the fields read from a word gives the word with its reserved bits zeroed. -/
theorem packFields_readField (k : RegKind) (w : Word) :
    packFields ((fieldsOf k).map fun f => (f, readField w f)) = w &&& ~~~reservedMask k := by
  apply BitVec.eq_of_getLsbD_eq
  intro j hj
  rw [getLsbD_packFields _ hj, BitVec.getLsbD_and, reservedMask_spec k j hj, List.any_map, Bool.eq_iff_iff]
  simp only [List.any_eq_true, Bool.and_eq_true, Function.comp, setsBit, decide_eq_true_eq, testBit_readField]
  have hsub : ∀ f : RegField, fieldLo f ≤ j → (j - fieldLo f < fieldWidth f ↔ j ≤ fieldHi f) := by
    intro f hf
    have := fieldLo_add_width f
    omega
  constructor
  · rintro ⟨f, hf, hlo, hw, hb⟩
    rw [Nat.add_sub_cancel' hlo] at hb
    exact ⟨hb, f, hf, hlo, (hsub f hlo).mp hw⟩
  · rintro ⟨hb, f, hf, hlo, hhi⟩
    exact ⟨f, hf, hlo, (hsub f hlo).mpr hhi, by rwa [Nat.add_sub_cancel' hlo]⟩

/-- The value of a packed word: with the fields in rising order and each value fitting, the sum of the shifted
values. -/
theorem toNat_foldl_insertField (es : List (RegField × Nat)) (w : Word) (b : Nat) (hw : w.toNat < 2 ^ b)
    (hb : ∀ e ∈ es, b ≤ fieldLo e.1) (hfit : ∀ e ∈ es, e.2 < 2 ^ fieldWidth e.1)
    (hsorted : es.Pairwise fun e e' => fieldHi e.1 < fieldLo e'.1) :
    (es.foldl insertField w).toNat = w.toNat + (es.map fun e => e.2 * 2 ^ fieldLo e.1).sum := by
  induction es generalizing w b with
  | nil => simp
  | cons e es ih =>
    have hval := hfit e (by simp)
    have hhi := fieldHi_lt e.1
    have hwidth := fieldLo_add_width e.1
    have hshift : e.2 * 2 ^ fieldLo e.1 + 2 ^ fieldLo e.1 ≤ 2 ^ (fieldHi e.1 + 1) := by
      rw [← hwidth, Nat.pow_add, Nat.mul_comm (2 ^ fieldLo e.1), ← Nat.succ_mul]
      exact Nat.mul_le_mul_right _ hval
    have hw' : w.toNat < 2 ^ fieldLo e.1 :=
      lt_of_lt_of_le hw (Nat.pow_le_pow_right (by decide) (hb e (by simp)))
    have htop : 2 ^ (fieldHi e.1 + 1) ≤ 2 ^ 32 := Nat.pow_le_pow_right (by decide) (by omega)
    have hv32 : e.2 < 2 ^ 32 :=
      lt_of_lt_of_le hval (Nat.pow_le_pow_right (by decide) (by omega))
    have hins : (insertField w e).toNat = w.toNat + e.2 * 2 ^ fieldLo e.1 := by
      have hmod : e.2 * 2 ^ fieldLo e.1 < 2 ^ 32 := by omega
      simp only [insertField, BitVec.toNat_or, BitVec.toNat_shiftLeft, BitVec.toNat_ofNat,
        Nat.mod_eq_of_lt hv32, Nat.shiftLeft_eq, Nat.mod_eq_of_lt hmod]
      rw [Nat.or_comm, Nat.mul_comm e.2, ← Nat.two_pow_add_eq_or_of_lt hw', Nat.add_comm]
    rw [List.pairwise_cons] at hsorted
    rw [List.foldl_cons, ih (insertField w e) (fieldHi e.1 + 1) (by rw [hins]; omega)
      (fun e' he' => hsorted.1 e' he') (fun e' he' => hfit e' (by simp [he'])) hsorted.2, hins,
      List.map_cons, List.sum_cons]
    omega

theorem toNat_packFields (es : List (RegField × Nat)) (hfit : ∀ e ∈ es, e.2 < 2 ^ fieldWidth e.1)
    (hsorted : es.Pairwise fun e e' => fieldHi e.1 < fieldLo e'.1) :
    (packFields es).toNat = (es.map fun e => e.2 * 2 ^ fieldLo e.1).sum := by
  have h := toNat_foldl_insertField es 0 0 (by decide) (by simp) hfit hsorted
  rw [packFields, h]
  exact Nat.zero_add _

/-- The sum of the values, each shifted to its field's place. -/
def shiftedSum : List (RegField × Nat) → Nat
  | [] => 0
  | e :: es => e.2 * 2 ^ fieldLo e.1 + shiftedSum es

theorem shiftedSum_eq (es : List (RegField × Nat)) :
    shiftedSum es = (es.map fun e => e.2 * 2 ^ fieldLo e.1).sum := by
  induction es with
  | nil => rfl
  | cons e es ih => rw [shiftedSum, ih, List.map_cons, List.sum_cons]

/-- The sum one field at a time, the field's place given as a number. -/
theorem shiftedSum_cons {f : RegField} {lo : Nat} (h : fieldLo f = lo) (v : Nat) (es : List (RegField × Nat)) :
    shiftedSum ((f, v) :: es) = v * 2 ^ lo + shiftedSum es := by
  rw [shiftedSum, ← h]

theorem shiftedSum_nil : shiftedSum [] = 0 := by rw [shiftedSum]

/-- The packed word as the sum of its shifted fields. -/
theorem packFields_eq_sum (es : List (RegField × Nat)) (hfit : ∀ e ∈ es, e.2 < 2 ^ fieldWidth e.1)
    (hsorted : es.Pairwise fun e e' => fieldHi e.1 < fieldLo e'.1) :
    packFields es = BitVec.ofNat 32 (shiftedSum es) := by
  rw [shiftedSum_eq, ← toNat_packFields es hfit hsorted, BitVec.ofNat_toNat, BitVec.setWidth_eq]

/-! ## Encoding -/

/-- Everything `encodeFields` can do: the first field that is refused, or the packed word of accepted fields. -/
theorem encodeFields_cases (cfg : Config) (es : List (RegField × Nat)) :
    (∃ e ∈ es, regFieldOk cfg e = false ∧ encodeFields cfg es = .error (.fieldOutOfRange (.reg e.1))) ∨
      ((∀ e ∈ es, regFieldOk cfg e = true) ∧ encodeFields cfg es = .ok (packFields es)) := by
  unfold encodeFields
  cases h : es.find? fun e => !regFieldOk cfg e with
  | some e =>
    exact .inl ⟨e, List.mem_of_find?_eq_some h, by simpa using List.find?_some h, rfl⟩
  | none =>
    exact .inr ⟨fun e he => by simpa using List.find?_eq_none.mp h e he, rfl⟩

/-- An accepted value fits its field. -/
theorem fits_of_regFieldOk {cfg : Config} {e : RegField × Nat} (h : regFieldOk cfg e = true) :
    e.2 < 2 ^ fieldWidth e.1 := by
  simp only [regFieldOk, Bool.and_eq_true, decide_eq_true_eq] at h
  exact h.1

/-- One check of `encodeFields`. -/
theorem encodeFields_cons_bad {cfg : Config} {e : RegField × Nat} (es : List (RegField × Nat))
    (h : regFieldOk cfg e = false) : encodeFields cfg (e :: es) = .error (.fieldOutOfRange (.reg e.1)) := by
  simp [encodeFields, h]

/-- `encodeFields` on accepted fields. -/
theorem encodeFields_ok {cfg : Config} {es : List (RegField × Nat)} (h : ∀ e ∈ es, regFieldOk cfg e = true) :
    encodeFields cfg es = .ok (packFields es) := by
  rcases encodeFields_cases cfg es with ⟨e, he, hbad, -⟩ | ⟨-, hok⟩
  · simp [h e he] at hbad
  · exact hok

/-- REG.ENCODE's response, one check at a time: `all` are the fields to pack, the list those still to check. -/
def encodeResponse (cfg : Config) (all : List (RegField × Nat)) : List (RegField × Nat) → Response
  | [] => .ok (.word (packFields all))
  | e :: es => if regFieldOk cfg e = true then encodeResponse cfg all es else .err (.fieldOutOfRange (.reg e.1))

/-- Everything REG.ENCODE can answer. -/
theorem responseTo_encodeResult (cfg : Config) (es : List (RegField × Nat)) :
    responseTo (encodeResult cfg es) = encodeResponse cfg es es := by
  have aux : ∀ all rest : List (RegField × Nat), responseTo (match (match rest.find? fun e => !regFieldOk cfg e with
      | some e => Except.error (Err.fieldOutOfRange (.reg e.1))
      | none => .ok (packFields all)) with
      | .ok w => .ok (Result.word w)
      | .error e => .error e) = encodeResponse cfg all rest := by
    intro all rest
    induction rest with
    | nil => rfl
    | cons e rest ih =>
      rw [encodeResponse, ← ih, List.find?_cons]
      cases regFieldOk cfg e <;> rfl
  exact aux es es

end Sys2Proof.Machine
end

