-- ==== Sys2Proof/Laws/Flags.lean ====
section
/-! SUPPORT. The conditions of a result: when the two mismatch bits are set, what the `unrecognized` list is field by
field, and which values a field accepts. -/

namespace Sys2Proof.Machine

theorem syncMismatch_eq (w : Word) : syncMismatch w = decide (w.toNat / 2 ^ 24 ≠ 0x5A) := by
  have hw := w.isLt
  have h : readField w .syncByte = w.toNat / 2 ^ 24 := by
    rw [readField_eq]
    exact Nat.mod_eq_of_lt (by simp only [fieldWidth, fieldHi, fieldLo]; omega)
  rw [syncMismatch, h, Bool.eq_iff_iff]
  simp [syncByte]

theorem idMismatch_eq (w : Word) : idMismatch w = decide (w ≠ 0x43495424) := by
  have h : readField w .idValue = w.toNat := readField_whole w _ rfl rfl
  rw [idMismatch, h, Bool.eq_iff_iff]
  simp [ticId, ← BitVec.toNat_inj]

/-- The count of members is the MAX of every enumeration but BULK and FREQ, whose MAX is a parameter (R65, R9). -/
theorem enumMax_eq_length (cfg : Config) (e : Enumeration) (hb : e ≠ .bulk) (hf : e ≠ .freq) :
    enumMax cfg e = (members e).length := by
  cases e <;> first | rfl | exact absurd rfl hb | exact absurd rfl hf

/-- Which values are at or beyond the MAX of a field (R76): those of an enumeration not below its MAX. -/
@[simp] theorem beyondMax_some_iff (cfg : Config) (e : Enumeration) (v : Nat) :
    beyondMax cfg (some e) v = true ↔ enumMax cfg e ≤ v := by simp [beyondMax]

@[simp] theorem beyondMax_none (cfg : Config) (v : Nat) : beyondMax cfg none v = false := rfl

@[simp] theorem unrecognizedReg_nil (cfg : Config) : unrecognizedReg cfg [] = [] := rfl

/-- The list of Unrecognized fields, one field at a time. -/
theorem unrecognizedReg_cons (cfg : Config) (e : RegField × Nat) (es : List (RegField × Nat)) :
    unrecognizedReg cfg (e :: es) =
      (if beyondMax cfg (regEnum e.1) e.2 = true then [.reg e.1] else []) ++ unrecognizedReg cfg es := by
  unfold unrecognizedReg
  rw [List.filter_cons]
  cases h : beyondMax cfg (regEnum e.1) e.2 <;> simp

@[simp] theorem unrecognizedHdr_nil (cfg : Config) : unrecognizedHdr cfg [] = [] := rfl

/-- The list of Unrecognized header fields, one field at a time. -/
theorem unrecognizedHdr_cons (cfg : Config) (e : HdrField × Nat) (es : List (HdrField × Nat)) :
    unrecognizedHdr cfg (e :: es) =
      (if beyondMax cfg (hdrEnum e.1) e.2 = true then [.hdr e.1] else []) ++ unrecognizedHdr cfg es := by
  unfold unrecognizedHdr
  rw [List.filter_cons]
  cases h : beyondMax cfg (hdrEnum e.1) e.2 <;> simp

/-! ## Encode ranges -/

/-- A field of no enumeration, other than the Frame Characteristics count and index, has no range of its own. -/
theorem inEncodeRange_plain (cfg : Config) {f : RegField} (v : Nat) (he : regEnum f = none)
    (hc : f ≠ .microframesPerFrame) (hi : f ≠ .microframeIndex) : inEncodeRange cfg f v = true := by
  cases f <;> first | exact absurd rfl hc | exact absurd rfl hi | simp [inEncodeRange, he]

/-- A value of an enumeration is below the enumeration's MAX. -/
theorem inEncodeRange_enum (cfg : Config) {f : RegField} {e : Enumeration} {m : Nat} (v : Nat)
    (he : regEnum f = some e) (hm : enumMax cfg e = m) : inEncodeRange cfg f v = true ↔ v < m := by
  subst hm
  cases f <;> first | (simp [regEnum] at he; done) | simp [inEncodeRange, he, beyondMax]

/-- The Frame Characteristics count is 1 to 31. -/
theorem inEncodeRange_count (cfg : Config) (v : Nat) :
    inEncodeRange cfg .microframesPerFrame v = true ↔ 1 ≤ v ∧ v ≤ 31 := by
  rw [inEncodeRange, decide_eq_true_eq, mfpfMin, mfpfMax]

/-- The Frame Characteristics index is 1 to 31. -/
theorem inEncodeRange_index (cfg : Config) (v : Nat) :
    inEncodeRange cfg .microframeIndex v = true ↔ 1 ≤ v ∧ v ≤ 31 := by
  rw [inEncodeRange, decide_eq_true_eq, mfiMin, mfiMax]

/-- Everything REG.ENCODE asks of a field's value. -/
theorem regFieldOk_iff (cfg : Config) (f : RegField) (v : Nat) :
    regFieldOk cfg (f, v) = true ↔ v < 2 ^ fieldWidth f ∧ inEncodeRange cfg f v = true := by
  rw [regFieldOk, Bool.and_eq_true, decide_eq_true_eq]

/-- A value read from a word fits its field. -/
theorem regFieldOk_readField (cfg : Config) (w : Word) (f : RegField) :
    regFieldOk cfg (f, readField w f) = inEncodeRange cfg f (readField w f) := by
  simp [regFieldOk, readField_lt w f]

end Sys2Proof.Machine
end

