-- ==== Sys2Proof/Laws/Envelope.lean ====
section
/-! SUPPORT. The envelope codec: everything `parse_common` and `build_common` can do, the value of a header field,
and the bytes of each built header. -/

namespace Sys2Proof.Machine

/-! ## Parsing -/

theorem sub_from (B : Bytes) (a n : Nat) : sub B a (a + n) = (B.drop a).take n := by
  rw [sub, Nat.add_sub_cancel_left]

/-- Everything `parse_common` can do (R121). -/
theorem parseCommon_eq (cfg : Config) (B : Bytes) (H : Nat) :
    parseCommon cfg B H =
      if B.length < H then .error (.truncatedHeader B.length H)
      else if B.length - H < le32 B 4 then .error (.truncatedPayload (B.length - H) (le32 B 4))
      else if le32 B 4 < B.length - H ∧ cfg.allowTrailingBytes = false then
        .error (.lengthMismatch (B.length - H) (le32 B 4))
      else .ok ((B.drop H).take (le32 B 4)) := by
  have h : memRead B (hdrOffset .payloadSize) 4 = le32 B 4 := memRead_four B 4
  unfold parseCommon
  simp only [h, sub_from]

/-- A payload that parses is `LE32(B, 4)` bytes long. -/
theorem parseCommon_ok {cfg : Config} {B P : Bytes} {H : Nat} (h : parseCommon cfg B H = .ok P) :
    H ≤ B.length ∧ le32 B 4 ≤ B.length - H ∧ (cfg.allowTrailingBytes = false → le32 B 4 = B.length - H) ∧
      P = (B.drop H).take (le32 B 4) ∧ P.length = le32 B 4 := by
  rw [parseCommon_eq] at h
  by_cases h1 : B.length < H
  · rw [if_pos h1] at h; cases h
  rw [if_neg h1] at h
  by_cases h2 : B.length - H < le32 B 4
  · rw [if_pos h2] at h; cases h
  rw [if_neg h2] at h
  by_cases h3 : le32 B 4 < B.length - H ∧ cfg.allowTrailingBytes = false
  · rw [if_pos h3] at h; cases h
  rw [if_neg h3] at h
  cases h
  refine ⟨by omega, by omega, fun ht => ?_, rfl, ?_⟩
  · have : ¬le32 B 4 < B.length - H := fun hlt => h3 ⟨hlt, ht⟩
    omega
  · rw [List.length_take, List.length_drop]
    omega

/-- A four-byte header field. -/
theorem readHdr_four {cfg : Config} {f : HdrField} {i : Nat} (B : Bytes) (ho : hdrOffset f = i)
    (hs : hdrSize cfg f = 4) : readHdr cfg B f = le32 B i := by
  rw [readHdr, ho, hs, memRead_four]

/-- A one-byte header field. -/
theorem readHdr_one {cfg : Config} {f : HdrField} {i : Nat} (B : Bytes) (ho : hdrOffset f = i)
    (hs : hdrSize cfg f = 1) : readHdr cfg B f = (B.getD i 0).toNat := by
  rw [readHdr, ho, hs, memRead_one]

/-! ## Building -/

/-- A build's field checks, one at a time: `k` is what follows them. -/
def headerChecks (cfg : Config) (k : Except Err Bytes) : List (HdrField × Nat) → Except Err Bytes
  | [] => k
  | e :: es => if hdrFieldOk cfg e = true then headerChecks cfg k es else .error (.fieldOutOfRange (.hdr e.1))

/-- Everything `build_common` can do (R122). -/
theorem buildCommon_eq (cfg : Config) (es : List (HdrField × Nat)) (lenField : HdrField) (P : Bytes) (H max : Nat)
    (check : Option Err) :
    buildCommon cfg es lenField P H max check =
      headerChecks cfg
        (if max < P.length then .error (.payloadTooLarge P.length max)
        else
          match check with
          | some e => .error e
          | none =>
            if 2 ^ 32 ≤ P.length then .error (.fieldOutOfRange (.hdr lenField))
            else .ok (overwrite (writeFields cfg (zeros (H + P.length)) (es ++ [(lenField, P.length)])) H P)) es := by
  unfold buildCommon
  generalize (if max < P.length then _ else _ : Except Err Bytes) = k
  induction es with
  | nil => rfl
  | cons e es ih =>
    rw [headerChecks, ← ih, List.find?_cons]
    cases hdrFieldOk cfg e <;> rfl

/-- A header field of four bytes and no enumeration accepts every 32-bit value. -/
theorem hdrFieldOk_word {cfg : Config} {f : HdrField} (v : Nat) (hs : hdrSize cfg f = 4) (he : hdrEnum f = none) :
    hdrFieldOk cfg (f, v) = true ↔ v < 2 ^ 32 := by
  simp [hdrFieldOk, hs, he]

/-- A header field of one byte and no enumeration accepts every byte value. -/
theorem hdrFieldOk_byte {cfg : Config} {f : HdrField} (v : Nat) (hs : hdrSize cfg f = 1) (he : hdrEnum f = none) :
    hdrFieldOk cfg (f, v) = true ↔ v < 256 := by
  simp [hdrFieldOk, hs, he]

/-- A header field of an enumeration with a fixed MAX accepts the values below it. -/
theorem hdrFieldOk_enum {cfg : Config} {f : HdrField} {e : Enumeration} {m : Nat} (v : Nat)
    (hs : hdrSize cfg f = 4) (he : hdrEnum f = some e) (hm : enumMax cfg e = m) (hlt : m ≤ 2 ^ 32) :
    hdrFieldOk cfg (f, v) = true ↔ v < m := by
  subst hm
  simp only [hdrFieldOk, hs, he, beyondMax, Bool.and_eq_true, decide_eq_true_eq, Bool.not_eq_true',
    decide_eq_false_iff_not]
  omega

/-! ## The bytes of a built envelope -/

theorem zeros_add (m n : Nat) : zeros (m + n) = zeros m ++ zeros n := List.replicate_add ..

/-- A write into the header leaves what follows it. -/
theorem overwrite_append (A C bs : Bytes) (a : Nat) (h : a + bs.length ≤ A.length) :
    overwrite (A ++ C) a bs = overwrite A a bs ++ C := by
  rw [overwrite, overwrite, List.take_append_of_le_length (by omega), List.drop_append_of_le_length (by omega),
    List.append_assoc, List.append_assoc, List.append_assoc]

theorem memWrite_append (A C : Bytes) (a n v : Nat) (h : a + n ≤ A.length) :
    memWrite (A ++ C) a n v = memWrite A a n v ++ C := overwrite_append A C _ a (by simpa using h)

/-- A payload written over the zeros that follow the header. -/
theorem overwrite_payload (A P : Bytes) {H : Nat} (hA : A.length = H) :
    overwrite (A ++ zeros P.length) H P = A ++ P := by
  subst hA
  rw [overwrite, List.take_left, List.drop_eq_nil_of_le (by simp [length_zeros]), List.append_nil]

/-- Header fields written into the header alone. -/
theorem writeFields_append (cfg : Config) (C : Bytes) (es : List (HdrField × Nat)) (A : Bytes)
    (h : ∀ e ∈ es, hdrOffset e.1 + hdrSize cfg e.1 ≤ A.length) :
    writeFields cfg (A ++ C) es = writeFields cfg A es ++ C := by
  unfold writeFields
  induction es generalizing A with
  | nil => rfl
  | cons e es ih =>
    have he := h e (by simp)
    rw [List.foldl_cons, List.foldl_cons, memWrite_append _ _ _ _ _ he]
    apply ih
    intro e' he'
    rw [length_memWrite _ _ _ _ he]
    exact h e' (by simp [he'])

theorem length_writeFields (cfg : Config) (es : List (HdrField × Nat)) (A : Bytes)
    (h : ∀ e ∈ es, hdrOffset e.1 + hdrSize cfg e.1 ≤ A.length) : (writeFields cfg A es).length = A.length := by
  unfold writeFields
  induction es generalizing A with
  | nil => rfl
  | cons e es ih =>
    have he := h e (by simp)
    rw [List.foldl_cons, ih _ (fun e' he' => by rw [length_memWrite _ _ _ _ he]; exact h e' (by simp [he'])),
      length_memWrite _ _ _ _ he]

/-- The bytes of an envelope: the header's fields written over zeros, then the payload. -/
theorem envelope_bytes (cfg : Config) (es : List (HdrField × Nat)) (H : Nat) (P : Bytes)
    (h : ∀ e ∈ es, hdrOffset e.1 + hdrSize cfg e.1 ≤ H) :
    overwrite (writeFields cfg (zeros (H + P.length)) es) H P = writeFields cfg (zeros H) es ++ P := by
  have hz : (zeros H).length = H := length_zeros H
  rw [zeros_add, writeFields_append cfg _ es (zeros H) (by rw [hz]; exact h)]
  exact overwrite_payload _ P (by rw [length_writeFields cfg es _ (by rw [hz]; exact h), hz])

/-! Each built header as R67 to R71 lay it out, given field by field in the order the build writes them. -/

/-- The Raw Data header with a four-byte compatibility id. -/
theorem rawHeader_bytes_four (cfg : Config) (hc : cfg.compatIdBytes = .four) (t b v c x n : Nat) :
    writeFields cfg (zeros 64) [(.dataType, t), (.bufferId, b), (.protocolVer, v), (.compatId, c),
        (.transactionId, x), (.payloadSize, n)] =
      bytesLe32 t ++ bytesLe32 n ++ bytesLe32 b ++ bytesLe32 v ++ (bytesLe32 c ++ List.replicate 12 0) ++
        bytesLe32 x ++ List.replicate 28 0 := by
  simp only [writeFields, List.foldl_cons, List.foldl_nil, hdrSize, compatIdSize, hc, hdrOffset, memWrite,
    leBytes_four]
  rfl

/-- The Raw Data header with a one-byte compatibility id. -/
theorem rawHeader_bytes_one (cfg : Config) (hc : cfg.compatIdBytes = .one) (t b v c x n : Nat) :
    writeFields cfg (zeros 64) [(.dataType, t), (.bufferId, b), (.protocolVer, v), (.compatId, c),
        (.transactionId, x), (.payloadSize, n)] =
      bytesLe32 t ++ bytesLe32 n ++ bytesLe32 b ++ bytesLe32 v ++
        (BitVec.ofNat 8 c :: List.replicate 15 0) ++ bytesLe32 x ++ List.replicate 28 0 := by
  simp only [writeFields, List.foldl_cons, List.foldl_nil, hdrSize, compatIdSize, hc, hdrOffset, memWrite,
    leBytes_four, leBytes_one]
  rfl

/-- The Feedback header. -/
theorem fbHeader_bytes (cfg : Config) (c b v d o n : Nat) :
    writeFields cfg (zeros 64) [(.feedbackCmdType, c), (.bufferId, b), (.protocolVer, v), (.feedbackDataType, d),
        (.destOffset, o), (.payloadSize, n)] =
      bytesLe32 c ++ bytesLe32 n ++ bytesLe32 b ++ bytesLe32 v ++ bytesLe32 d ++ bytesLe32 o ++
        List.replicate 40 0 := by
  simp only [writeFields, List.foldl_cons, List.foldl_nil, hdrSize, hdrOffset, memWrite, leBytes_four]
  rfl

/-- The Write header. -/
theorem wrHeader_bytes (cfg : Config) (t n : Nat) :
    writeFields cfg (zeros 8) [(.writeDataType, t), (.writeDataLen, n)] = bytesLe32 t ++ bytesLe32 n := by
  simp only [writeFields, List.foldl_cons, List.foldl_nil, hdrSize, hdrOffset, memWrite, leBytes_four]
  rfl

/-- The twelve bytes of the Error payload. -/
theorem errp_bytes (t fw e : Nat) :
    memWrite (memWrite (memWrite (zeros 12) 0 1 t) 4 4 fw) 8 4 e =
      BitVec.ofNat 8 t :: List.replicate 3 0 ++ bytesLe32 fw ++ bytesLe32 e := by
  simp only [memWrite, leBytes_four, leBytes_one]
  rfl

end Sys2Proof.Machine
end

