-- ==== Sys2Proof/Laws/Frame.lean ====
section
/-! SUPPORT. The Frame Reassembler: the fields of a snapshot, and everything one micro-frame can do to an instance. -/

namespace Sys2Proof.Machine

/-! ## The snapshot -/

theorem frameChar_size (fc : Word) : (decodeFrameChar fc).microframeSize = fc.toNat % 2 ^ 18 := by
  have h : (decodeFrameChar fc).microframeSize = readField fc .microframeSize := rfl
  rw [h, readField_at fc (lo := 0) (n := 18) rfl rfl, Nat.pow_zero, Nat.div_one]

theorem frameChar_count (fc : Word) : (decodeFrameChar fc).microframesPerFrame = fc.toNat / 2 ^ 18 % 2 ^ 5 := by
  have h : (decodeFrameChar fc).microframesPerFrame = readField fc .microframesPerFrame := rfl
  rw [h, readField_at fc (lo := 18) (n := 5) rfl rfl]

theorem frameChar_index (fc : Word) : (decodeFrameChar fc).microframeIndex = fc.toNat / 2 ^ 23 % 2 ^ 5 := by
  have h : (decodeFrameChar fc).microframeIndex = readField fc .microframeIndex := rfl
  rw [h, readField_at fc (lo := 23) (n := 5) rfl rfl]

theorem frameChar_hid (fc : Word) : (decodeFrameChar fc).hidReport = fc.toNat / 2 ^ 28 % 2 := by
  have h : (decodeFrameChar fc).hidReport = readField fc .hidReport := rfl
  rw [h, readField_at fc (lo := 28) (n := 1) rfl rfl, Nat.pow_one]

/-- The fields of the word `fc(size, mfpf, index, hid)`, when they fit. -/
theorem toNat_fcWord {size mfpf index hid : Nat} (hs : size < 2 ^ 18) (hm : mfpf < 2 ^ 5) (hi : index < 2 ^ 5)
    (hh : hid ≤ 1) : (fcWord size mfpf index hid).toNat = size + mfpf * 2 ^ 18 + index * 2 ^ 23 + hid * 2 ^ 28 := by
  rw [fcWord, BitVec.toNat_ofNat]
  exact Nat.mod_eq_of_lt (by omega)

/-- The view of the word `fc(size, mfpf, index, hid)`, when its fields fit. -/
theorem decodeFrameChar_fcWord {size mfpf index hid : Nat} (hs : size < 2 ^ 18) (hm : mfpf < 2 ^ 5)
    (hi : index < 2 ^ 5) (hh : hid ≤ 1) :
    decodeFrameChar (fcWord size mfpf index hid) = ⟨size, mfpf, index, hid⟩ := by
  have h := toNat_fcWord hs hm hi hh
  have h1 := frameChar_size (fcWord size mfpf index hid)
  have h2 := frameChar_count (fcWord size mfpf index hid)
  have h3 := frameChar_index (fcWord size mfpf index hid)
  have h4 := frameChar_hid (fcWord size mfpf index hid)
  rw [h] at h1 h2 h3 h4
  generalize decodeFrameChar (fcWord size mfpf index hid) = v at *
  obtain ⟨a, b, c, d⟩ := v
  simp only at h1 h2 h3 h4
  rw [FrameCharView.mk.injEq]
  omega

/-! ## One micro-frame -/

/-- Everything a micro-frame that opens a frame can do. -/
theorem openFrame_cases (v : FrameCharView) (data : Bytes) :
    (∃ r, openFrame v data = faultWith r) ∨
      (v.microframeIndex = 1 ∧ v.microframeSize ≤ 32768 ∧ v.microframesPerFrame = 1 ∧
        openFrame v data = (Reassembler.reset, .ok (.complete data v.hidReport))) ∨
      (v.microframeIndex = 1 ∧ v.microframeSize ≤ 32768 ∧ v.microframesPerFrame ≠ 1 ∧
        openFrame v data = (⟨.collecting, data, v.microframesPerFrame, 1, v.microframeSize, v.hidReport⟩,
          .ok .collecting)) := by
  unfold openFrame maxFrameBytes
  by_cases h1 : v.microframeIndex ≠ 1
  · exact .inl ⟨_, if_pos h1⟩
  rw [if_neg h1]
  by_cases h2 : 32768 < v.microframeSize
  · exact .inl ⟨_, if_pos h2⟩
  rw [if_neg h2]
  by_cases h3 : v.microframesPerFrame = 1
  · exact .inr (.inl ⟨not_not.mp h1, by omega, h3, if_pos h3⟩)
  · exact .inr (.inr ⟨not_not.mp h1, by omega, h3, if_neg h3⟩)

/-- Everything a micro-frame compared with the frame being collected can do. -/
theorem appendFrame_cases (R : Reassembler) (v : FrameCharView) (data : Bytes) :
    (∃ r, appendFrame R v data = faultWith r) ∨
      ((v.microframesPerFrame = R.mfpf ∧ v.microframeIndex = R.last + 1 ∧ v.microframeSize = R.mfs ∧
        v.hidReport = R.hid ∧ R.buf.length + v.microframeSize ≤ 32768) ∧
        ((v.microframeIndex = R.mfpf ∧
          appendFrame R v data = (Reassembler.reset, .ok (.complete (R.buf ++ data) R.hid))) ∨
        (v.microframeIndex ≠ R.mfpf ∧
          appendFrame R v data = ({ R with buf := R.buf ++ data, last := v.microframeIndex }, .ok .collecting)))) := by
  unfold appendFrame maxFrameBytes
  by_cases h1 : v.microframesPerFrame ≠ R.mfpf
  · exact .inl ⟨_, if_pos h1⟩
  rw [if_neg h1]
  by_cases h2 : v.microframeIndex ≠ R.last + 1
  · exact .inl ⟨_, if_pos h2⟩
  rw [if_neg h2]
  by_cases h3 : v.microframeSize ≠ R.mfs
  · exact .inl ⟨_, if_pos h3⟩
  rw [if_neg h3]
  by_cases h4 : v.hidReport ≠ R.hid
  · exact .inl ⟨_, if_pos h4⟩
  rw [if_neg h4]
  by_cases h5 : 32768 < R.buf.length + v.microframeSize
  · exact .inl ⟨_, if_pos h5⟩
  rw [if_neg h5]
  refine .inr ⟨⟨not_not.mp h1, not_not.mp h2, not_not.mp h3, not_not.mp h4, by omega⟩, ?_⟩
  by_cases h6 : v.microframeIndex = R.mfpf
  · exact .inl ⟨h6, if_pos h6⟩
  · exact .inr ⟨h6, if_neg h6⟩

/-- Everything FRAME.PUSH can do to its instance: drop the micro-frame, fault, open a frame or append to one. -/
theorem pushFrame_cases (R : Reassembler) (fc : Word) (data : Bytes) :
    (R.phase = .faulted ∧ (decodeFrameChar fc).microframeIndex ≠ 1 ∧ pushFrame R fc data = (R, .ok .dropped)) ∨
      (∃ r, pushFrame R fc data = faultWith r) ∨
      ((1 ≤ (decodeFrameChar fc).microframeIndex ∧
        (decodeFrameChar fc).microframeIndex ≤ (decodeFrameChar fc).microframesPerFrame ∧
        data.length = (decodeFrameChar fc).microframeSize) ∧
        ((R.phase ≠ .collecting ∧ pushFrame R fc data = openFrame (decodeFrameChar fc) data) ∨
        (R.phase = .collecting ∧ pushFrame R fc data = appendFrame R (decodeFrameChar fc) data))) := by
  unfold pushFrame
  by_cases h1 : R.phase = .faulted ∧ (decodeFrameChar fc).microframeIndex ≠ 1
  · exact .inl ⟨h1.1, h1.2, if_pos h1⟩
  by_cases h2 : (decodeFrameChar fc).microframesPerFrame = 0 ∨ (decodeFrameChar fc).microframeIndex = 0 ∨
      (decodeFrameChar fc).microframesPerFrame < (decodeFrameChar fc).microframeIndex
  · exact .inr (.inl ⟨.invalidCharacteristics, by simp only [if_neg h1, if_pos h2]⟩)
  by_cases h3 : data.length ≠ (decodeFrameChar fc).microframeSize
  · exact .inr (.inl ⟨.dataLengthMismatch, by simp only [if_neg h1, if_neg h2, if_pos h3]⟩)
  refine .inr (.inr ⟨⟨by omega, by omega, not_not.mp h3⟩, ?_⟩)
  simp only [if_neg h1, if_neg h2, if_neg h3]
  cases h : R.phase
  · exact .inl ⟨nofun, rfl⟩
  · exact .inr ⟨rfl, rfl⟩
  · exact .inl ⟨nofun, rfl⟩

@[simp] theorem faultWith_snd (r : ReassemblyReason) : (faultWith r).2 = .err (.reassemblyError r) := rfl
@[simp] theorem faultWith_fst (r : ReassemblyReason) :
    (faultWith r).1 = { Reassembler.reset with phase := .faulted } := rfl

/-! ## The instructions -/

/-- FRAME.PUSH to an instance that exists. -/
theorem execFramePush_of_some {s : State} {d : Nat} {R : Reassembler} (h : s.instances[d]? = some R) (fc : Word)
    (data : Bytes) :
    execFramePush d fc data s = .next ((s.setInstance d (pushFrame R fc data).1).respond (pushFrame R fc data).2) := by
  simp only [execFramePush, h]

/-- FRAME.PUSH to one that does not. -/
theorem execFramePush_of_none {s : State} {d : Nat} (h : s.instances[d]? = none) (fc : Word) (data : Bytes) :
    execFramePush d fc data s = .next (s.respond (.err (.unknownOperation 0x1000))) := by
  simp only [execFramePush, h, noSuchInstance, raiseErr]

/-- FRAME.RESET of an instance that exists. -/
theorem execFrameReset_of_some {s : State} {d : Nat} {R : Reassembler} (h : s.instances[d]? = some R) :
    execFrameReset d s = .next ((s.setInstance d Reassembler.reset).respond (.ok .resetDone)) := by
  simp only [execFrameReset, h, answer]

/-- FRAME.RESET of one that does not. -/
theorem execFrameReset_of_none {s : State} {d : Nat} (h : s.instances[d]? = none) :
    execFrameReset d s = .next (s.respond (.err (.unknownOperation 0x1001))) := by
  simp only [execFrameReset, h, noSuchInstance, raiseErr]

end Sys2Proof.Machine
end

