-- ==== Sys2Proof/Laws/PerInstr.lean ====
section
/-! SUPPORT. Facts about each instruction as syntax, one lemma for each constructor. -/

namespace Sys2Proof

/-- The mnemonic of each instruction, letter for letter as the opcode table has it (R45). -/
def mnemonicOf : Instr → String
  | .regDecodeStatus _ => "REG.DECODE.STATUS"
  | .regDecodeFrameChar _ => "REG.DECODE.FRAMECHAR"
  | .regDecodeError _ => "REG.DECODE.ERROR"
  | .regDecodeId _ => "REG.DECODE.ID"
  | .regDecodeDataSize _ => "REG.DECODE.DATASIZE"
  | .regDecodeCaps _ => "REG.DECODE.CAPS"
  | .regDecodeConfig _ => "REG.DECODE.CONFIG"
  | .regDecodeCmd _ => "REG.DECODE.CMD"
  | .regDecodePwrCtl _ => "REG.DECODE.PWRCTL"
  | .regDecodeVendorHw _ => "REG.DECODE.VENDORHW"
  | .regDecodeHwRev _ => "REG.DECODE.HWREV"
  | .regDecodeFwRev _ => "REG.DECODE.FWREV"
  | .regDecodeCompat _ => "REG.DECODE.COMPAT"
  | .regDecodeTestCtl _ => "REG.DECODE.TESTCTL"
  | .regEncodeStatus _ => "REG.ENCODE.STATUS"
  | .regEncodeFrameChar _ => "REG.ENCODE.FRAMECHAR"
  | .regEncodeError _ => "REG.ENCODE.ERROR"
  | .regEncodeId _ => "REG.ENCODE.ID"
  | .regEncodeDataSize _ => "REG.ENCODE.DATASIZE"
  | .regEncodeCaps _ => "REG.ENCODE.CAPS"
  | .regEncodeConfig _ => "REG.ENCODE.CONFIG"
  | .regEncodeCmd _ => "REG.ENCODE.CMD"
  | .regEncodePwrCtl _ => "REG.ENCODE.PWRCTL"
  | .regEncodeVendorHw _ => "REG.ENCODE.VENDORHW"
  | .regEncodeHwRev _ => "REG.ENCODE.HWREV"
  | .regEncodeFwRev _ => "REG.ENCODE.FWREV"
  | .regEncodeCompat _ => "REG.ENCODE.COMPAT"
  | .regEncodeTestCtl _ => "REG.ENCODE.TESTCTL"
  | .framePush _ _ _ => "FRAME.PUSH"
  | .frameReset _ => "FRAME.RESET"
  | .rawParse _ => "RAW.PARSE"
  | .rawBuild _ _ => "RAW.BUILD"
  | .fbParse _ => "FB.PARSE"
  | .fbBuild _ _ => "FB.BUILD"
  | .wrParse _ => "WR.PARSE"
  | .wrBuild _ _ => "WR.BUILD"
  | .errpParse _ => "ERRP.PARSE"
  | .errpBuild _ => "ERRP.BUILD"
  | .stateClassify _ => "STATE.CLASSIFY"
  | .statePwrval _ _ => "STATE.PWRVAL"
  | .stateCmdval _ _ => "STATE.CMDVAL"

/-- The instruction's mnemonic and selector are a row of the operation table of R45. -/
def Laws.ListedSelector.Statement (i : Instr) : Prop :=
  (opTable.lookup (mnemonicOf i)).map Prod.fst = some (selectorOf i)

theorem Laws.ListedSelector.regDecodeStatus (word : Word) :
    Laws.ListedSelector.Statement (.regDecodeStatus word) := by
  show (opTable.lookup "REG.DECODE.STATUS").map Prod.fst = some 0x0100#16
  decide

theorem Laws.ListedSelector.regDecodeFrameChar (word : Word) :
    Laws.ListedSelector.Statement (.regDecodeFrameChar word) := by
  show (opTable.lookup "REG.DECODE.FRAMECHAR").map Prod.fst = some 0x0104#16
  decide

theorem Laws.ListedSelector.regDecodeError (word : Word) :
    Laws.ListedSelector.Statement (.regDecodeError word) := by
  show (opTable.lookup "REG.DECODE.ERROR").map Prod.fst = some 0x0108#16
  decide

theorem Laws.ListedSelector.regDecodeId (word : Word) :
    Laws.ListedSelector.Statement (.regDecodeId word) := by
  show (opTable.lookup "REG.DECODE.ID").map Prod.fst = some 0x0110#16
  decide

theorem Laws.ListedSelector.regDecodeDataSize (word : Word) :
    Laws.ListedSelector.Statement (.regDecodeDataSize word) := by
  show (opTable.lookup "REG.DECODE.DATASIZE").map Prod.fst = some 0x0114#16
  decide

theorem Laws.ListedSelector.regDecodeCaps (word : Word) :
    Laws.ListedSelector.Statement (.regDecodeCaps word) := by
  show (opTable.lookup "REG.DECODE.CAPS").map Prod.fst = some 0x0118#16
  decide

theorem Laws.ListedSelector.regDecodeConfig (word : Word) :
    Laws.ListedSelector.Statement (.regDecodeConfig word) := by
  show (opTable.lookup "REG.DECODE.CONFIG").map Prod.fst = some 0x011C#16
  decide

theorem Laws.ListedSelector.regDecodeCmd (word : Word) :
    Laws.ListedSelector.Statement (.regDecodeCmd word) := by
  show (opTable.lookup "REG.DECODE.CMD").map Prod.fst = some 0x0120#16
  decide

theorem Laws.ListedSelector.regDecodePwrCtl (word : Word) :
    Laws.ListedSelector.Statement (.regDecodePwrCtl word) := by
  show (opTable.lookup "REG.DECODE.PWRCTL").map Prod.fst = some 0x0124#16
  decide

theorem Laws.ListedSelector.regDecodeVendorHw (word : Word) :
    Laws.ListedSelector.Statement (.regDecodeVendorHw word) := by
  show (opTable.lookup "REG.DECODE.VENDORHW").map Prod.fst = some 0x0128#16
  decide

theorem Laws.ListedSelector.regDecodeHwRev (word : Word) :
    Laws.ListedSelector.Statement (.regDecodeHwRev word) := by
  show (opTable.lookup "REG.DECODE.HWREV").map Prod.fst = some 0x012C#16
  decide

theorem Laws.ListedSelector.regDecodeFwRev (word : Word) :
    Laws.ListedSelector.Statement (.regDecodeFwRev word) := by
  show (opTable.lookup "REG.DECODE.FWREV").map Prod.fst = some 0x0130#16
  decide

theorem Laws.ListedSelector.regDecodeCompat (word : Word) :
    Laws.ListedSelector.Statement (.regDecodeCompat word) := by
  show (opTable.lookup "REG.DECODE.COMPAT").map Prod.fst = some 0x0134#16
  decide

theorem Laws.ListedSelector.regDecodeTestCtl (word : Word) :
    Laws.ListedSelector.Statement (.regDecodeTestCtl word) := by
  show (opTable.lookup "REG.DECODE.TESTCTL").map Prod.fst = some 0x0140#16
  decide

theorem Laws.ListedSelector.regEncodeStatus (view : StatusView) :
    Laws.ListedSelector.Statement (.regEncodeStatus view) := by
  show (opTable.lookup "REG.ENCODE.STATUS").map Prod.fst = some 0x0200#16
  decide

theorem Laws.ListedSelector.regEncodeFrameChar (view : FrameCharView) :
    Laws.ListedSelector.Statement (.regEncodeFrameChar view) := by
  show (opTable.lookup "REG.ENCODE.FRAMECHAR").map Prod.fst = some 0x0204#16
  decide

theorem Laws.ListedSelector.regEncodeError (view : ErrorView) :
    Laws.ListedSelector.Statement (.regEncodeError view) := by
  show (opTable.lookup "REG.ENCODE.ERROR").map Prod.fst = some 0x0208#16
  decide

theorem Laws.ListedSelector.regEncodeId (view : IdView) :
    Laws.ListedSelector.Statement (.regEncodeId view) := by
  show (opTable.lookup "REG.ENCODE.ID").map Prod.fst = some 0x0210#16
  decide

theorem Laws.ListedSelector.regEncodeDataSize (view : DataSizeView) :
    Laws.ListedSelector.Statement (.regEncodeDataSize view) := by
  show (opTable.lookup "REG.ENCODE.DATASIZE").map Prod.fst = some 0x0214#16
  decide

theorem Laws.ListedSelector.regEncodeCaps (view : CapsView) :
    Laws.ListedSelector.Statement (.regEncodeCaps view) := by
  show (opTable.lookup "REG.ENCODE.CAPS").map Prod.fst = some 0x0218#16
  decide

theorem Laws.ListedSelector.regEncodeConfig (view : ConfigView) :
    Laws.ListedSelector.Statement (.regEncodeConfig view) := by
  show (opTable.lookup "REG.ENCODE.CONFIG").map Prod.fst = some 0x021C#16
  decide

theorem Laws.ListedSelector.regEncodeCmd (view : CmdView) :
    Laws.ListedSelector.Statement (.regEncodeCmd view) := by
  show (opTable.lookup "REG.ENCODE.CMD").map Prod.fst = some 0x0220#16
  decide

theorem Laws.ListedSelector.regEncodePwrCtl (view : PwrCtlView) :
    Laws.ListedSelector.Statement (.regEncodePwrCtl view) := by
  show (opTable.lookup "REG.ENCODE.PWRCTL").map Prod.fst = some 0x0224#16
  decide

theorem Laws.ListedSelector.regEncodeVendorHw (view : VendorHwView) :
    Laws.ListedSelector.Statement (.regEncodeVendorHw view) := by
  show (opTable.lookup "REG.ENCODE.VENDORHW").map Prod.fst = some 0x0228#16
  decide

theorem Laws.ListedSelector.regEncodeHwRev (view : HwRevView) :
    Laws.ListedSelector.Statement (.regEncodeHwRev view) := by
  show (opTable.lookup "REG.ENCODE.HWREV").map Prod.fst = some 0x022C#16
  decide

theorem Laws.ListedSelector.regEncodeFwRev (view : FwRevView) :
    Laws.ListedSelector.Statement (.regEncodeFwRev view) := by
  show (opTable.lookup "REG.ENCODE.FWREV").map Prod.fst = some 0x0230#16
  decide

theorem Laws.ListedSelector.regEncodeCompat (view : CompatView) :
    Laws.ListedSelector.Statement (.regEncodeCompat view) := by
  show (opTable.lookup "REG.ENCODE.COMPAT").map Prod.fst = some 0x0234#16
  decide

theorem Laws.ListedSelector.regEncodeTestCtl (view : TestCtlView) :
    Laws.ListedSelector.Statement (.regEncodeTestCtl view) := by
  show (opTable.lookup "REG.ENCODE.TESTCTL").map Prod.fst = some 0x0240#16
  decide

theorem Laws.ListedSelector.framePush (dev : Nat) (fc : Word) (data : Bytes) :
    Laws.ListedSelector.Statement (.framePush dev fc data) := by
  show (opTable.lookup "FRAME.PUSH").map Prod.fst = some 0x1000#16
  decide

theorem Laws.ListedSelector.frameReset (dev : Nat) :
    Laws.ListedSelector.Statement (.frameReset dev) := by
  show (opTable.lookup "FRAME.RESET").map Prod.fst = some 0x1001#16
  decide

theorem Laws.ListedSelector.rawParse (bytes : Bytes) :
    Laws.ListedSelector.Statement (.rawParse bytes) := by
  show (opTable.lookup "RAW.PARSE").map Prod.fst = some 0x2000#16
  decide

theorem Laws.ListedSelector.rawBuild (hdr : RawHeader) (payload : Bytes) :
    Laws.ListedSelector.Statement (.rawBuild hdr payload) := by
  show (opTable.lookup "RAW.BUILD").map Prod.fst = some 0x2001#16
  decide

theorem Laws.ListedSelector.fbParse (bytes : Bytes) :
    Laws.ListedSelector.Statement (.fbParse bytes) := by
  show (opTable.lookup "FB.PARSE").map Prod.fst = some 0x2100#16
  decide

theorem Laws.ListedSelector.fbBuild (hdr : FbHeader) (payload : Bytes) :
    Laws.ListedSelector.Statement (.fbBuild hdr payload) := by
  show (opTable.lookup "FB.BUILD").map Prod.fst = some 0x2101#16
  decide

theorem Laws.ListedSelector.wrParse (bytes : Bytes) :
    Laws.ListedSelector.Statement (.wrParse bytes) := by
  show (opTable.lookup "WR.PARSE").map Prod.fst = some 0x2200#16
  decide

theorem Laws.ListedSelector.wrBuild (hdr : WrHeader) (payload : Bytes) :
    Laws.ListedSelector.Statement (.wrBuild hdr payload) := by
  show (opTable.lookup "WR.BUILD").map Prod.fst = some 0x2201#16
  decide

theorem Laws.ListedSelector.errpParse (bytes : Bytes) :
    Laws.ListedSelector.Statement (.errpParse bytes) := by
  show (opTable.lookup "ERRP.PARSE").map Prod.fst = some 0x2300#16
  decide

theorem Laws.ListedSelector.errpBuild (hdr : ErrpHeader) :
    Laws.ListedSelector.Statement (.errpBuild hdr) := by
  show (opTable.lookup "ERRP.BUILD").map Prod.fst = some 0x2301#16
  decide

theorem Laws.ListedSelector.stateClassify (status : Word) :
    Laws.ListedSelector.Statement (.stateClassify status) := by
  show (opTable.lookup "STATE.CLASSIFY").map Prod.fst = some 0x3000#16
  decide

theorem Laws.ListedSelector.statePwrval (status : Word) (request : Word) :
    Laws.ListedSelector.Statement (.statePwrval status request) := by
  show (opTable.lookup "STATE.PWRVAL").map Prod.fst = some 0x3001#16
  decide

theorem Laws.ListedSelector.stateCmdval (status : Word) (request : Word) :
    Laws.ListedSelector.Statement (.stateCmdval status request) := by
  show (opTable.lookup "STATE.CMDVAL").map Prod.fst = some 0x3002#16
  decide

end Sys2Proof
end

