-- ==== Sys2Proof/Laws/Step.lean ====
section
/-! SUPPORT. One step, and runs of steps one step at a time. -/

namespace Sys2Proof.Machine

/-- A step whose request is legal (R43). -/
theorem step_of_decode_ok {s : State} {r : Request} {rest : List Request} {i : Instr} (hp : s.pending = r :: rest)
    (hd : decode r = .ok i) : step s = exec i { s with pending := rest } := by
  simp only [step, hp, hd]

/-- A step whose request is not (R46). -/
theorem step_of_decode_error {s : State} {r : Request} {rest : List Request} {e : Err} (hp : s.pending = r :: rest)
    (hd : decode r = .error e) :
    step s = .next { s with pending := rest, responses := s.responses ++ [.err e] } := by
  simp only [step, hp, hd, raiseErr, State.respond]

/-- Everything a step can do: nothing, the error of an illegal selector, or the operation of a legal one. -/
theorem step_cases (s : State) :
    (s.pending = [] ∧ step s = .next s) ∨
      ∃ r rest, s.pending = r :: rest ∧
        ((∃ e, decode r = .error e ∧
            step s = .next { s with pending := rest, responses := s.responses ++ [.err e] }) ∨
          ∃ i, decode r = .ok i ∧ step s = exec i { s with pending := rest }) := by
  cases hp : s.pending with
  | nil => exact .inl ⟨rfl, by simp only [step, hp]⟩
  | cons r rest =>
    refine .inr ⟨r, rest, rfl, ?_⟩
    cases hd : decode r with
    | error e => exact .inl ⟨e, rfl, step_of_decode_error hp hd⟩
    | ok i => exact .inr ⟨i, rfl, step_of_decode_ok hp hd⟩

/-- A run whose first step answers a next state goes on from there, on any machine. -/
theorem run_succ_of_next (M : Host.Core) {s t : M.State} (h : M.step s = .next t) (k : Nat) :
    M.run (k + 1) s = M.run k t := by
  rw [Host.Core.run.eq_def]
  simp only [h]

theorem run_zero (s : State) : core.run 0 s = .next s := rfl

/-- The same on this machine. -/
theorem run_succ {s t : State} (h : step s = .next t) (k : Nat) : core.run (k + 1) s = core.run k t :=
  run_succ_of_next core h k

end Sys2Proof.Machine
end

