-- ==== Sys2Proof/WellFormed.lean ====
section
/-! DEFINITION. Well-formedness. A request is well formed by its type: words are 32 bits, selectors 16, bytes 8,
and the view and header ports carry every field (assumption 3), so every request has a response (R15, R43) and
every `Instr` is well formed. What can be ill formed is a line of a program (R47) and the number of devices
(R9: `N_DEVICES >= 1`). -/

namespace Sys2Proof

/-- A line of a program that has no syntax error (R47). -/
abbrev Line.WellFormed (l : Line) : Prop := Machine.checkLine l = none

/-- A machine that serves at least one device (R9, R23). -/
abbrev Machine.State.HasDevice (s : Machine.State) : Prop := 1 ≤ s.instances.length

end Sys2Proof
end

