-- ==== Sys2Proof/Tests/Slice0.lean ====
section
/-! SUPPORT. Tests, each expected result taken from the spec: selectors written out from R44 and R45, the vectors of
`95_test_vectors.md` (named in each comment), an ill-formed line for each syntax error of R47, and a witness for each
statement that has hypotheses. -/

namespace Sys2Proof.Tests

open Sys2Proof.Machine

/-! ## Helpers -/

/-- Instance 0 is `R`, instance 1 is at its reset value, the configuration is that of the spec's vectors. -/
def withInstance (R : Reassembler) : State := { State.reset with instances := [R, Reassembler.reset] }

/-- The response of an instruction in a state. -/
def answerIn (s : State) (i : Instr) : Option Response :=
  match exec i s with
  | .next t => t.responses.getLast?
  | _ => none

/-- The response of an instruction in the reset state. -/
def answerOf (i : Instr) : Option Response := answerIn State.reset i

/-- Instance 0 after an instruction. -/
def instanceAfter (s : State) (i : Instr) : Option Reassembler :=
  match exec i s with
  | .next t => t.instances[0]?
  | _ => none

/-- The response of a step whose next request is `r`. -/
def stepAnswer (r : Request) : Option Response :=
  match step { State.reset with pending := [r] } with
  | .next t => t.responses.getLast?
  | _ => none

/-- An outcome is a given next state: comparable by evaluation. -/
def isNext (o : Host.Outcome State Fault Refusal) (t : State) : Bool :=
  match o with
  | .next s => s == t
  | _ => false

theorem eq_of_isNext {o : Host.Outcome State Fault Refusal} {t : State} (h : isNext o t = true) : o = .next t := by
  cases o with
  | next s => simpa [isNext] using h
  | fault f => cases f
  | refused r => simp [isNext] at h

/-! ## Selectors (R44, R45), the sixteen bits written out: class, then sub-operation -/

theorem test_decode_reg_decode :
    decodeTableWord 16 0b0000000100000000 = some (.regDecodeStatus 0) ∧
      decodeTableWord 16 0b0000000100000100 = some (.regDecodeFrameChar 0) ∧
      decodeTableWord 16 0b0000000100001000 = some (.regDecodeError 0) ∧
      decodeTableWord 16 0b0000000100010000 = some (.regDecodeId 0) ∧
      decodeTableWord 16 0b0000000100010100 = some (.regDecodeDataSize 0) ∧
      decodeTableWord 16 0b0000000100011000 = some (.regDecodeCaps 0) ∧
      decodeTableWord 16 0b0000000100011100 = some (.regDecodeConfig 0) ∧
      decodeTableWord 16 0b0000000100100000 = some (.regDecodeCmd 0) ∧
      decodeTableWord 16 0b0000000100100100 = some (.regDecodePwrCtl 0) ∧
      decodeTableWord 16 0b0000000100101000 = some (.regDecodeVendorHw 0) ∧
      decodeTableWord 16 0b0000000100101100 = some (.regDecodeHwRev 0) ∧
      decodeTableWord 16 0b0000000100110000 = some (.regDecodeFwRev 0) ∧
      decodeTableWord 16 0b0000000100110100 = some (.regDecodeCompat 0) ∧
      decodeTableWord 16 0b0000000101000000 = some (.regDecodeTestCtl 0) := by decide

theorem test_decode_reg_encode :
    decodeTableWord 16 0b0000001000000000 = some (.regEncodeStatus ⟨0, 0, 0, 0, 0, 0⟩) ∧
      decodeTableWord 16 0b0000001000000100 = some (.regEncodeFrameChar ⟨0, 0, 0, 0⟩) ∧
      decodeTableWord 16 0b0000001000001000 = some (.regEncodeError ⟨0, 0, 0, 0, 0⟩) ∧
      decodeTableWord 16 0b0000001000010000 = some (.regEncodeId ⟨0⟩) ∧
      decodeTableWord 16 0b0000001000010100 = some (.regEncodeDataSize ⟨0, 0⟩) ∧
      decodeTableWord 16 0b0000001000011000 = some (.regEncodeCaps ⟨0, 0, 0, 0, 0, 0, 0, 0, 0⟩) ∧
      decodeTableWord 16 0b0000001000011100 = some (.regEncodeConfig ⟨0, 0, 0, 0⟩) ∧
      decodeTableWord 16 0b0000001000100000 = some (.regEncodeCmd ⟨0⟩) ∧
      decodeTableWord 16 0b0000001000100100 = some (.regEncodePwrCtl ⟨0⟩) ∧
      decodeTableWord 16 0b0000001000101000 = some (.regEncodeVendorHw ⟨0, 0⟩) ∧
      decodeTableWord 16 0b0000001000101100 = some (.regEncodeHwRev ⟨0⟩) ∧
      decodeTableWord 16 0b0000001000110000 = some (.regEncodeFwRev ⟨0⟩) ∧
      decodeTableWord 16 0b0000001000110100 = some (.regEncodeCompat ⟨0, 0, 0, 0⟩) ∧
      decodeTableWord 16 0b0000001001000000 = some (.regEncodeTestCtl ⟨0⟩) := by decide

theorem test_decode_frame :
    decodeTableWord 16 0b0001000000000000 = some (.framePush 0 0 []) ∧
      decodeTableWord 16 0b0001000000000001 = some (.frameReset 0) := by decide

theorem test_decode_raw :
    decodeTableWord 16 0b0010000000000000 = some (.rawParse []) ∧
      decodeTableWord 16 0b0010000000000001 = some (.rawBuild ⟨0, 0, 0, 0, 0⟩ []) := by decide

theorem test_decode_fb :
    decodeTableWord 16 0b0010000100000000 = some (.fbParse []) ∧
      decodeTableWord 16 0b0010000100000001 = some (.fbBuild ⟨0, 0, 0, 0, 0⟩ []) := by decide

theorem test_decode_wr :
    decodeTableWord 16 0b0010001000000000 = some (.wrParse []) ∧
      decodeTableWord 16 0b0010001000000001 = some (.wrBuild ⟨0⟩ []) := by decide

theorem test_decode_errp :
    decodeTableWord 16 0b0010001100000000 = some (.errpParse []) ∧
      decodeTableWord 16 0b0010001100000001 = some (.errpBuild ⟨0, 0, 0, 0, 0, 0, 0, 0⟩) := by decide

theorem test_decode_state :
    decodeTableWord 16 0b0011000000000000 = some (.stateClassify 0) ∧
      decodeTableWord 16 0b0011000000000001 = some (.statePwrval 0 0) ∧
      decodeTableWord 16 0b0011000000000010 = some (.stateCmdval 0 0) := by decide

/-- 95 section 2.1: illegal selectors of a register class. -/
theorem test_unknownRegister :
    stepAnswer (Request.ofSel 0x010C) = some (.err (.unknownRegister 0x0C)) ∧
      stepAnswer (Request.ofSel 0x0238) = some (.err (.unknownRegister 0x38)) ∧
      stepAnswer (Request.ofSel 0x0102) = some (.err (.unknownRegister 0x02)) ∧
      stepAnswer (Request.ofSel 0x01FF) = some (.err (.unknownRegister 0xFF)) := by decide

/-- 95 section 2.1: every other illegal selector. -/
theorem test_unknownOperation :
    stepAnswer (Request.ofSel 0x0000) = some (.err (.unknownOperation 0x0000)) ∧
      stepAnswer (Request.ofSel 0x0300) = some (.err (.unknownOperation 0x0300)) ∧
      stepAnswer (Request.ofSel 0x1002) = some (.err (.unknownOperation 0x1002)) ∧
      stepAnswer (Request.ofSel 0x2400) = some (.err (.unknownOperation 0x2400)) ∧
      stepAnswer (Request.ofSel 0x3003) = some (.err (.unknownOperation 0x3003)) ∧
      stepAnswer (Request.ofSel 0xFFFF) = some (.err (.unknownOperation 0xFFFF)) := by decide

/-- 95 section 2.1: an instance that does not exist. -/
theorem test_noSuchInstance :
    answerOf (.framePush 2 0 []) = some (.err (.unknownOperation 0x1000)) ∧
      answerOf (.frameReset 5) = some (.err (.unknownOperation 0x1001)) := by decide

/-- The first step after reset runs the instruction the host places. -/
theorem test_withFetchWord :
    isNext (step (State.reset.withFetchWord 16 0x3000)) (State.reset.respond (.ok (.classified
      ⟨.dataAvailable, 0, .sleep, .readyForOp, 0, true⟩))) = true := by decide

/-! ## One step of each instruction -/

/-- DEC-2, DEC-4 -/
theorem test_regDecodeStatus : 
    answerOf (.regDecodeStatus 0x5A000265) = some (.ok (.status ⟨1, 2, 3, 0, 1, 0x5A⟩ [] false)) ∧
      answerOf (.regDecodeStatus 0x5A00000B) = some (.ok (.status ⟨1, 5, 0, 0, 0, 0x5A⟩ [.reg .intType] false)) := by decide

/-- 1.5: the mismatch bit alone -/
theorem test_regDecodeStatus_sync : 
    syncMismatch 0x5AFFFFFF = false ∧ syncMismatch 0x00000000 = true ∧ syncMismatch 0x5B000001 = true ∧
      syncMismatch 0x015A0000 = true := by decide

/-- DEC-8, DEC-10 -/
theorem test_regDecodeFrameChar : 
    answerOf (.regDecodeFrameChar 0x10840064) = some (.ok (.frameChar ⟨100, 1, 1, 1⟩ [])) ∧
      answerOf (.regDecodeFrameChar 0xFFFFFFFF) = some (.ok (.frameChar ⟨262143, 31, 31, 1⟩ [])) := by decide

/-- DEC-11, DEC-12 -/
theorem test_regDecodeError : 
    answerOf (.regDecodeError 0xBEEF8005) = some (.ok (.error ⟨1, 0, 1, 1, 0xBEEF⟩ [])) ∧
      answerOf (.regDecodeError 0x00007FF8) = some (.ok (.error ⟨0, 0, 0, 0, 0⟩ [])) := by decide

/-- DEC-13, DEC-14 -/
theorem test_regDecodeId : 
    answerOf (.regDecodeId 0x43495424) = some (.ok (.id ⟨0x43495424⟩ [] false)) ∧
      answerOf (.regDecodeId 0x00000000) = some (.ok (.id ⟨0⟩ [] true)) := by decide

/-- DEC-15, DEC-16 -/
theorem test_regDecodeDataSize : 
    answerOf (.regDecodeDataSize 0x000FF200) = some (.ok (.dataSize ⟨512, 255⟩ [] 32768 16320)) ∧
      answerOf (.regDecodeDataSize 0xFFFFFFFF) = some (.ok (.dataSize ⟨4095, 255⟩ [] 262080 16320)) := by decide

/-- DEC-17, DEC-18 -/
theorem test_regDecodeCaps : 
    answerOf (.regDecodeCaps 0x0A05230E) = some (.ok (.caps ⟨1, 1, 1, 1, 1, 0, 36, 2, 10⟩ [] 2304)) ∧
      answerOf (.regDecodeCaps 0xFFFFFFFF) = some (.ok (.caps ⟨1, 1, 1, 1, 1, 1, 63, 7, 255⟩ [] 4032)) := by decide

/-- DEC-19, DEC-20 -/
theorem test_regDecodeConfig : 
    answerOf (.regDecodeConfig 0x00000091) = some (.ok (.config ⟨1, 0, 4, 2⟩ [])) ∧
      answerOf (.regDecodeConfig 0xFFFFFFFF) = some (.ok (.config ⟨1, 1, 15, 7⟩ [.reg .bulkXferSize, .reg .freqSelect])) := by decide

/-- DEC-21, DEC-22 -/
theorem test_regDecodeCmd : 
    answerOf (.regDecodeCmd 0x00000002) = some (.ok (.cmd ⟨2⟩ [])) ∧
      answerOf (.regDecodeCmd 0x00000104) = some (.ok (.cmd ⟨4⟩ [.reg .commandCode])) := by decide

/-- DEC-23, DEC-24 -/
theorem test_regDecodePwrCtl : 
    answerOf (.regDecodePwrCtl 0x00000004) = some (.ok (.pwrCtl ⟨4⟩ [])) ∧
      answerOf (.regDecodePwrCtl 0xFFFFFFFF) = some (.ok (.pwrCtl ⟨7⟩ [.reg .pwrStateCmd])) := by decide

/-- DEC-25 to DEC-29 -/
theorem test_regDecodeRevisions : 
    answerOf (.regDecodeVendorHw 0x12348086) = some (.ok (.vendorHw ⟨0x8086, 0x1234⟩ [])) ∧
      answerOf (.regDecodeHwRev 0x00010203) = some (.ok (.hwRev ⟨0x00010203⟩ [])) ∧
      answerOf (.regDecodeFwRev 0xDEADBEEF) = some (.ok (.fwRev ⟨0xDEADBEEF⟩ [])) ∧
      answerOf (.regDecodeCompat 0x05020301) = some (.ok (.compat ⟨1, 3, 2, 5⟩ [])) ∧
      answerOf (.regDecodeTestCtl 0xA5A5A5A5) = some (.ok (.testCtl ⟨0xA5A5A5A5⟩ [])) := by decide

/-- ENC-1, ENC-3 -/
theorem test_regEncodeStatus : 
    answerOf (.regEncodeStatus ⟨1, 2, 3, 0, 1, 0x5A⟩) = some (.ok (.word 0x5A000265)) ∧
      answerOf (.regEncodeStatus ⟨2, 5, 0, 0, 0, 0x5A⟩) = some (.err (.fieldOutOfRange (.reg .intStatus))) := by decide

/-- ENC-5, ENC-7, ENC-9 -/
theorem test_regEncodeFrameChar : 
    answerOf (.regEncodeFrameChar ⟨4096, 8, 8, 1⟩) = some (.ok (.word 0x14201000)) ∧
      answerOf (.regEncodeFrameChar ⟨256, 0, 1, 0⟩) = some (.err (.fieldOutOfRange (.reg .microframesPerFrame))) ∧
      answerOf (.regEncodeFrameChar ⟨256, 2, 3, 0⟩) = some (.ok (.word 0x01880100)) := by decide

/-- ENC-11, ENC-12 -/
theorem test_regEncodeError : 
    answerOf (.regEncodeError ⟨0, 1, 0, 1, 0x0042⟩) = some (.ok (.word 0x00428002)) ∧
      answerOf (.regEncodeError ⟨0, 0, 0, 0, 0x10000⟩) = some (.err (.fieldOutOfRange (.reg .vendorErrors))) := by decide

/-- ENC-13, ENC-14 -/
theorem test_regEncodeId : 
    answerOf (.regEncodeId ⟨0x43495424⟩) = some (.ok (.word 0x43495424)) ∧
      answerOf (.regEncodeId ⟨2 ^ 32⟩) = some (.err (.fieldOutOfRange (.reg .idValue))) := by decide

/-- ENC-15, ENC-16 -/
theorem test_regEncodeDataSize : 
    answerOf (.regEncodeDataSize ⟨512, 255⟩) = some (.ok (.word 0x000FF200)) ∧
      answerOf (.regEncodeDataSize ⟨4096, 0⟩) = some (.err (.fieldOutOfRange (.reg .maxFrameSize))) := by decide

/-- ENC-17, ENC-18 -/
theorem test_regEncodeCaps : 
    answerOf (.regEncodeCaps ⟨1, 1, 0, 1, 1, 1, 63, 4, 10⟩) = some (.ok (.word 0x0A09FF06)) ∧
      answerOf (.regEncodeCaps ⟨0, 0, 0, 0, 0, 0, 64, 0, 0⟩) = some (.err (.fieldOutOfRange (.reg .bulkDataMaxWrite))) := by decide

/-- ENC-19, ENC-22 -/
theorem test_regEncodeConfig : 
    answerOf (.regEncodeConfig ⟨0, 1, 4, 2⟩) = some (.ok (.word 0x00000092)) ∧
      answerOf (.regEncodeConfig ⟨0, 1, 5, 3⟩) = some (.err (.fieldOutOfRange (.reg .bulkXferSize))) := by decide

/-- ENC-23, ENC-24 -/
theorem test_regEncodeCmd : 
    answerOf (.regEncodeCmd ⟨1⟩) = some (.ok (.word 0x00000001)) ∧
      answerOf (.regEncodeCmd ⟨4⟩) = some (.err (.fieldOutOfRange (.reg .commandCode))) := by decide

/-- ENC-25, ENC-26 -/
theorem test_regEncodePwrCtl : 
    answerOf (.regEncodePwrCtl ⟨3⟩) = some (.ok (.word 0x00000003)) ∧
      answerOf (.regEncodePwrCtl ⟨5⟩) = some (.err (.fieldOutOfRange (.reg .pwrStateCmd))) := by decide

/-- ENC-27 to ENC-32 -/
theorem test_regEncodeRevisions : 
    answerOf (.regEncodeVendorHw ⟨0x045E, 0x0021⟩) = some (.ok (.word 0x0021045E)) ∧
      answerOf (.regEncodeHwRev ⟨0x00010203⟩) = some (.ok (.word 0x00010203)) ∧
      answerOf (.regEncodeFwRev ⟨0xDEADBEEF⟩) = some (.ok (.word 0xDEADBEEF)) ∧
      answerOf (.regEncodeCompat ⟨0, 1, 1, 6⟩) = some (.ok (.word 0x06010100)) ∧
      answerOf (.regEncodeCompat ⟨256, 0, 0, 0⟩) = some (.err (.fieldOutOfRange (.reg .minor))) ∧
      answerOf (.regEncodeTestCtl ⟨0xA5A5A5A5⟩) = some (.ok (.word 0xA5A5A5A5)) := by decide

/-- FR-9, then FR-10: a frame of two empty micro-frames. -/
theorem test_framePush_empty :
    instanceAfter State.reset (.framePush 0 0x00880000 []) = some ⟨.collecting, [], 2, 1, 0, 0⟩ ∧
      answerIn (withInstance ⟨.collecting, [], 2, 1, 0, 0⟩) (.framePush 0 0x01080000 []) =
        some (.ok (.complete [] 0)) := by decide

/-- A frame of two 2-byte micro-frames (the layout of section 2.4's `fc`): the second completes it in index order. -/
theorem test_framePush_order :
    answerIn (withInstance ⟨.collecting, [1, 2], 2, 1, 2, 1⟩) (.framePush 0 0x11080002 [3, 4]) =
        some (.ok (.complete [1, 2, 3, 4] 1)) ∧
      instanceAfter (withInstance ⟨.collecting, [1, 2], 2, 1, 2, 1⟩) (.framePush 0 0x11080002 [3, 4]) =
        some Reassembler.reset := by decide

/-- FR-20 and FR-22: what a Faulted instance drops unchecked, and what it checks. -/
theorem test_framePush_faulted :
    answerIn (withInstance ⟨.faulted, [], 0, 0, 0, 0⟩) (.framePush 0 0x010C0100 [1, 2, 3, 4, 5, 6, 7]) =
        some (.ok .dropped) ∧
      answerIn (withInstance ⟨.faulted, [], 0, 0, 0, 0⟩) (.framePush 0 0x00800100 []) =
        some (.err (.reassemblyError .invalidCharacteristics)) := by decide

/-- FR-11 to FR-14 with a 2-byte size: each comparison with the frame being collected, in order. -/
theorem test_framePush_mismatch :
    answerIn (withInstance ⟨.collecting, [1, 2], 3, 1, 2, 0⟩) (.framePush 0 0x01100002 [3, 4]) =
        some (.err (.reassemblyError .mfpfMismatch)) ∧
      answerIn (withInstance ⟨.collecting, [1, 2], 3, 1, 2, 0⟩) (.framePush 0 0x008C0002 [3, 4]) =
        some (.err (.reassemblyError .outOfOrder)) ∧
      answerIn (withInstance ⟨.collecting, [1, 2], 3, 1, 2, 0⟩) (.framePush 0 0x010C0001 [3]) =
        some (.err (.reassemblyError .sizeMismatch)) ∧
      answerIn (withInstance ⟨.collecting, [1, 2], 3, 1, 2, 0⟩) (.framePush 0 0x110C0002 [3, 4]) =
        some (.err (.reassemblyError .hidFlagMismatch)) ∧
      answerIn (withInstance ⟨.collecting, [1, 2], 3, 1, 2, 0⟩) (.framePush 0 0x010C0002 [3]) =
        some (.err (.reassemblyError .dataLengthMismatch)) := by decide

/-- FR-23: a reset delivers nothing and empties the instance. -/
theorem test_frameReset :
    answerIn (withInstance ⟨.collecting, [1, 2], 3, 1, 2, 0⟩) (.frameReset 0) = some (.ok .resetDone) ∧
      instanceAfter (withInstance ⟨.collecting, [1, 2], 3, 1, 2, 0⟩) (.frameReset 0) = some Reassembler.reset := by
  decide

/-- RAW-1: the bytes built. -/
def raw1 : Bytes :=
  [0, 0, 0, 0, 3, 0, 0, 0, 7, 0, 0, 0, 1, 0, 0, 0, 0, 0, 0, 0] ++ zeros 12 ++ [0x44, 0x33, 0x22, 0x11] ++ zeros 28 ++
    [0xAA, 0xBB, 0xCC]

/-- RAW-1, RAW-14 -/
theorem test_rawBuild :
    answerOf (.rawBuild ⟨0, 7, 1, 0, 0x11223344⟩ [0xAA, 0xBB, 0xCC]) = some (.ok (.built raw1)) ∧
      answerOf (.rawBuild ⟨0, 7, 2 ^ 32, 0, 0⟩ []) = some (.err (.fieldOutOfRange (.hdr .protocolVer))) := by decide

/-- RAW-2, RAW-5, RAW-8 -/
theorem test_rawParse :
    answerOf (.rawParse raw1) =
        some (.ok (.rawParsed ⟨0, 3, 7, 1, 0, zeros 12, 0x11223344, zeros 28⟩ [0xAA, 0xBB, 0xCC] [])) ∧
      answerOf (.rawParse (raw1 ++ [0])) = some (.err (.lengthMismatch 4 3)) ∧
      answerOf (.rawParse (raw1.set 16 1)) = some (.err (.versionIncompatible 1 (some 1))) := by decide

/-- FB-1: the bytes built. -/
def fb1 : Bytes :=
  [0, 0, 0, 0, 2, 0, 0, 0, 7, 0, 0, 0, 1, 0, 0, 0, 0, 0, 0, 0, 0x00, 0x10, 0, 0] ++ zeros 40 ++ [1, 2]

/-- FB-1, FB-9, FB-11, FB-16: the window's edges. -/
theorem test_fbBuild :
    answerOf (.fbBuild ⟨0, 7, 1, 0, 0x1000⟩ [1, 2]) = some (.ok (.built fb1)) ∧
      answerOf (.fbBuild ⟨0, 7, 1, 0, 0x0FFF⟩ []) = some (.err (.offsetOutOfRange 0x0FFF 0)) ∧
      answerOf (.fbBuild ⟨0, 7, 1, 0, 0x1FFFF⟩ [1]) = some (.err (.offsetOutOfRange 0x1FFFF 1)) ∧
      answerOf (.fbBuild ⟨0, 7, 1, 0, 0xFFFFFFFF⟩ []) = some (.err (.offsetOutOfRange 0xFFFFFFFF 0)) := by decide

/-- FB-2, FB-3 -/
theorem test_fbParse :
    answerOf (.fbParse fb1) = some (.ok (.fbParsed ⟨0, 2, 7, 1, 0, 0x1000, zeros 40⟩ [1, 2] [])) ∧
      answerOf (.fbParse (fb1.set 12 0)) = some (.err (.versionIncompatible 0 none)) := by decide

/-- WR-2, WR-8 -/
theorem test_wrBuild : 
    answerOf (.wrBuild ⟨0⟩ [0xDE, 0xAD, 0xBE, 0xEF]) = some (.ok (.built [0, 0, 0, 0, 4, 0, 0, 0, 0xDE, 0xAD, 0xBE, 0xEF])) ∧
      answerOf (.wrBuild ⟨7⟩ []) = some (.err (.fieldOutOfRange (.hdr .writeDataType))) := by decide

/-- WR-3, WR-4, WR-5, WR-7 -/
theorem test_wrParse : 
    answerOf (.wrParse [0, 0, 0, 0, 4, 0, 0, 0, 0xDE, 0xAD, 0xBE, 0xEF]) = some (.ok (.wrParsed ⟨0, 4⟩ [0xDE, 0xAD, 0xBE, 0xEF] [])) ∧
      answerOf (.wrParse [2, 0, 0, 0, 0, 0, 0]) = some (.err (.truncatedHeader 7 8)) ∧
      answerOf (.wrParse [1, 0, 0, 0, 5, 0, 0, 0, 1, 2]) = some (.err (.truncatedPayload 2 5)) ∧
      answerOf (.wrParse [7, 0, 0, 0, 0, 0, 0, 0]) = some (.ok (.wrParsed ⟨7, 0⟩ [] [.hdr .writeDataType])) := by decide

/-- ERRP-1, ERRP-8 -/
theorem test_errpBuild : 
    answerOf (.errpBuild ⟨3, 1, 0, ⟨0, 1, 0, 1, 0x1234⟩⟩) = some (.ok (.built [3, 0, 0, 0, 1, 0, 0, 0, 0x02, 0x80, 0x34, 0x12])) ∧
      answerOf (.errpBuild ⟨3, 1, 0, ⟨0, 1, 0, 1, 0x10000⟩⟩) = some (.err (.fieldOutOfRange (.reg .vendorErrors))) := by decide

/-- ERRP-2, ERRP-5 -/
theorem test_errpParse : 
    answerOf (.errpParse [3, 0, 0, 0, 1, 0, 0, 0, 0x02, 0x80, 0x34, 0x12]) = some (.ok (.errpParsed ⟨3, [0, 0, 0], 1, 1, 0, 0x12348002, ⟨0, 1, 0, 1, 0x1234⟩⟩)) ∧
      answerOf (.errpParse [0xFF, 0xAA, 0xBB, 0xCC, 0xFE, 0xFF, 0xFF, 0xFF, 0xF8, 0x7F, 0, 0]) = some (.ok (.errpParsed ⟨0xFF, [0xAA, 0xBB, 0xCC], 0xFFFFFFFE, 0, 1, 0x00007FF8, ⟨0, 0, 0, 0, 0⟩⟩)) := by decide

/-- SI-8, SI-14 -/
theorem test_stateClassify : 
    answerOf (.stateClassify 0x5A000019) = some (.ok (.classified ⟨.unrecognized 12, 1, .sleep, .readyForOp, 0, false⟩)) ∧
      answerOf (.stateClassify 0x5A0000A1) = some (.ok (.classified ⟨.dataAvailable, 1, .doze, .fwNeeded, 0, false⟩)) := by decide

/-- PV-5, PV-7, PV-9, PV-11 -/
theorem test_statePwrval : 
    answerOf (.statePwrval 0x5A000000 4) = some (.ok (.pwrValidated (.accepted (.state .sensing) false .sleep))) ∧
      answerOf (.statePwrval 0x5A000000 7) = some (.ok (.pwrValidated (.accepted .noChange true .sleep))) ∧
      answerOf (.statePwrval 0x5A000200 3) = some (.ok (.pwrValidated (.invalid .busy))) ∧
      answerOf (.statePwrval 0x00000200 3) = some (.ok (.pwrValidated (.invalid .syncMismatch))) := by decide

/-- CV-3, CV-6, CV-8 -/
theorem test_stateCmdval : 
    answerOf (.stateCmdval 0x5A000000 2) = some (.ok (.cmdValidated (.accepted (.command .prepForRead) false))) ∧
      answerOf (.stateCmdval 0x5A000000 0xFF) = some (.ok (.cmdValidated (.accepted .noOp true))) ∧
      answerOf (.stateCmdval 0x5A000200 1) = some (.ok (.cmdValidated (.invalid .busy))) := by decide

/-- PV-13, PV-14 and CV-10: a forbidden transition, NOP past it, a forbidden command. -/
theorem test_forbidden :
    let p : State := { State.reset with cfg := { resetConfig with powerForbidden := [(.armed, .sleep)] } }
    let c : State := { State.reset with cfg := { resetConfig with cmdForbidden := [(.initError, .prepForRead)] } }
    answerIn p (.statePwrval 0x5A000040 1) = some (.ok (.pwrValidated (.invalid .illegalTransition))) ∧
      answerIn p (.statePwrval 0x5A000040 0) = some (.ok (.pwrValidated (.accepted .noChange false .armed))) ∧
      answerIn c (.stateCmdval 0x5A000180 2) = some (.ok (.cmdValidated (.invalid .illegalTransition))) := by decide

/-! ## Well-formedness: a well-formed line, and an ill-formed one for each check (R47) -/

/-- A Configuration record; `freq` is the last field's value. -/
def configRecord (freq : NumExpr) : Operand :=
  .record ⟨[("touch_enable", .lit 0), ("dhpm", .lit 1), ("bulk_xfer_size", .member "SIZE_64B"), ("freq_select", freq)],
    none⟩

/-- P1, step 5 -/
theorem test_wellFormed_line : Line.WellFormed ⟨none, "REG.ENCODE.CONFIG", [configRecord (.member "FREQ_30MHZ")]⟩ := by
  decide

theorem test_illFormed_unknownMnemonic : checkLine ⟨none, "REG.DECODE.NOTHING", [.num 0]⟩ = some .unknownMnemonic := by
  decide

theorem test_illFormed_operandForm : checkLine ⟨none, "FRAME.RESET", [.num 0, .num 1]⟩ = some .operandForm := by decide

theorem test_illFormed_missingField :
    checkLine ⟨none, "REG.ENCODE.CMD", [.record ⟨[], none⟩]⟩ = some (.missingField "command_code") := by decide

theorem test_illFormed_missingErr :
    checkLine ⟨none, "ERRP.BUILD", [.record ⟨[("error_type", .lit 0)], none⟩]⟩ = some (.missingField "err") := by decide

theorem test_illFormed_unknownField :
    checkLine ⟨none, "REG.ENCODE.CMD", [.record ⟨[("command_code", .lit 0), ("reserved", .lit 0)], none⟩]⟩ =
      some (.unknownField "reserved") := by decide

theorem test_illFormed_duplicateField :
    checkLine ⟨none, "REG.ENCODE.CMD", [.record ⟨[("command_code", .lit 0), ("command_code", .lit 1)], none⟩]⟩ =
      some (.duplicateField "command_code") := by decide

theorem test_illFormed_unknownMember :
    checkLine ⟨none, "REG.ENCODE.CONFIG", [configRecord (.member "FREQ_50MHZ")]⟩ =
      some (.unknownMember "freq_select") := by decide

theorem test_illFormed_wordTooWide :
    checkLine ⟨none, "REG.DECODE.ID", [.num (2 ^ 32)]⟩ = some (.wordTooWide (2 ^ 32)) := by decide

theorem test_illFormed_byteTooWide :
    checkLine ⟨none, "WR.PARSE", [.bytes (.lit [0, 256])]⟩ = some (.byteTooWide 256) := by decide

theorem test_illFormed_unboundName :
    assemble [] ⟨none, "WR.PARSE", [.bytes (.named "f")]⟩ = .error (.unboundName "f") := by decide

theorem test_illFormed_noDevice : ¬(State.resetWith resetConfig 0).HasDevice ∧ State.reset.HasDevice := by decide

/-! ## Witnesses: states and operands that meet the hypotheses of each statement that has some -/

/-- The request 0x0100 pending. -/
def pendingOne (sel : Sel) : State := { State.reset with pending := [Request.ofSel sel] }

/-- SelectorsAreLegalOrAnsweredByTheirError and EveryRequestGetsOneResponse: a request pending whose selector is
the least legal one, one whose selector is the greatest, and three whose selectors are in no row of R45: below and
above every row, and a register class with an offset of no register. -/
theorem witness_pending :
    (pendingOne 0x0100).pending = Request.ofSel 0x0100 :: [] ∧ (pendingOne 0x3002).pending = Request.ofSel 0x3002 :: [] ∧
      (pendingOne 0x010C).pending = Request.ofSel 0x010C :: [] ∧
      (0x0100 ∈ opTable.map (fun row => row.2.1.toNat)) ∧ (0x3002 ∈ opTable.map (fun row => row.2.1.toNat)) ∧
      (0x00FF ∉ opTable.map (fun row => row.2.1.toNat)) ∧ (0x010C ∉ opTable.map (fun row => row.2.1.toNat)) ∧
      (0x3003 ∉ opTable.map (fun row => row.2.1.toNat)) := by decide

/-- StepRunsTheDecodedInstruction -/
theorem witness_stepRuns :
    (pendingOne 0x0100).pending = Request.ofSel 0x0100 :: [] ∧
      decode (Request.ofSel 0x0100) = .ok (.regDecodeStatus 0) := ⟨by decide, rfl⟩

/-- StepWithoutRequestChangesNothing -/
theorem witness_noRequest : State.reset.pending = [] := by decide

/-- StatelessUnitsOnlyAnswer: an instruction that is neither FRAME.PUSH nor FRAME.RESET -/
theorem witness_stateless :
    (∀ d fc data, Instr.rawParse [] ≠ .framePush d fc data) ∧ ∀ d, Instr.rawParse [] ≠ .frameReset d :=
  ⟨nofun, nofun⟩

/-- ErrorsWriteNothingButTheFault: an error of a stateless unit -/
theorem witness_error :
    exec (.wrParse []) State.reset = .next (State.reset.respond (.err (.truncatedHeader 0 8))) := by
  exact eq_of_isNext (by decide)

/-- ErrorsWriteNothingButTheFault: a ReassemblyError (FR-2 with no data checks before it, an index of 0) -/
theorem witness_reassemblyError :
    exec (.framePush 0 0 []) State.reset =
      .next { State.reset with
        instances := [⟨.faulted, [], 0, 0, 0, 0⟩, Reassembler.reset],
        responses := [.err (.reassemblyError .invalidCharacteristics)] } := by
  exact eq_of_isNext (by decide)

/-- RegDecodeStatusResult and StateClassifyResult: a word with the sync byte -/
theorem witness_synced : (0x5A000001 : Word).toNat / 2 ^ 24 = 0x5A := by decide

/-- DecodeOfEncodedViewIsTheView: an accepted view of each kind, most fields at the top of their range -/
theorem witness_encoded :
    exec (.regEncodeStatus ⟨1, 4, 3, 3, 1, 255⟩) State.reset = .next (State.reset.respond (.ok (.word 0xFF0003E9))) ∧
      exec (.regEncodeFrameChar ⟨262143, 31, 31, 1⟩) State.reset = .next (State.reset.respond (.ok (.word 0x1FFFFFFF))) ∧
      exec (.regEncodeError ⟨1, 1, 1, 1, 65535⟩) State.reset = .next (State.reset.respond (.ok (.word 0xFFFF8007))) ∧
      exec (.regEncodeId ⟨0x43495424⟩) State.reset = .next (State.reset.respond (.ok (.word 0x43495424))) ∧
      exec (.regEncodeDataSize ⟨4095, 255⟩) State.reset = .next (State.reset.respond (.ok (.word 0x000FFFFF))) ∧
      exec (.regEncodeCaps ⟨1, 1, 1, 1, 1, 1, 63, 7, 255⟩) State.reset = .next (State.reset.respond (.ok (.word 0xFF0FFF0E))) ∧
      exec (.regEncodeConfig ⟨1, 1, 4, 2⟩) State.reset = .next (State.reset.respond (.ok (.word 0x00000093))) ∧
      exec (.regEncodeCmd ⟨3⟩) State.reset = .next (State.reset.respond (.ok (.word 0x00000003))) ∧
      exec (.regEncodePwrCtl ⟨4⟩) State.reset = .next (State.reset.respond (.ok (.word 0x00000004))) ∧
      exec (.regEncodeVendorHw ⟨65535, 65535⟩) State.reset = .next (State.reset.respond (.ok (.word 0xFFFFFFFF))) ∧
      exec (.regEncodeHwRev ⟨4294967295⟩) State.reset = .next (State.reset.respond (.ok (.word 0xFFFFFFFF))) ∧
      exec (.regEncodeFwRev ⟨4294967295⟩) State.reset = .next (State.reset.respond (.ok (.word 0xFFFFFFFF))) ∧
      exec (.regEncodeCompat ⟨255, 255, 255, 255⟩) State.reset = .next (State.reset.respond (.ok (.word 0xFFFFFFFF))) ∧
      exec (.regEncodeTestCtl ⟨4294967295⟩) State.reset = .next (State.reset.respond (.ok (.word 0xFFFFFFFF))) :=
  ⟨eq_of_isNext (by decide), eq_of_isNext (by decide), eq_of_isNext (by decide), eq_of_isNext (by decide), eq_of_isNext (by decide), eq_of_isNext (by decide), eq_of_isNext (by decide), eq_of_isNext (by decide), eq_of_isNext (by decide), eq_of_isNext (by decide), eq_of_isNext (by decide), eq_of_isNext (by decide), eq_of_isNext (by decide), eq_of_isNext (by decide)⟩

/-- EncodeOfDecodedWordZeroesReservedBits: the decode of each kind's word; the second law of STATUS, FRAMECHAR, CONFIG,
CMD and PWRCTL has a word for either side -/
theorem witness_decoded :
    exec (.regDecodeStatus 0xFF0003E9) State.reset = .next (State.reset.respond (.ok (.status ⟨1, 4, 3, 3, 1, 255⟩ [] true))) ∧
      exec (.regDecodeFrameChar 0x1FFFFFFF) State.reset = .next (State.reset.respond (.ok (.frameChar ⟨262143, 31, 31, 1⟩ []))) ∧
      exec (.regDecodeError 0xFFFF8007) State.reset = .next (State.reset.respond (.ok (.error ⟨1, 1, 1, 1, 65535⟩ []))) ∧
      exec (.regDecodeId 0x43495424) State.reset = .next (State.reset.respond (.ok (.id ⟨0x43495424⟩ [] false))) ∧
      exec (.regDecodeDataSize 0x000FFFFF) State.reset = .next (State.reset.respond (.ok (.dataSize ⟨4095, 255⟩ [] 262080 16320))) ∧
      exec (.regDecodeCaps 0xFF0FFF0E) State.reset = .next (State.reset.respond (.ok (.caps ⟨1, 1, 1, 1, 1, 1, 63, 7, 255⟩ [] 4032))) ∧
      exec (.regDecodeConfig 0x00000093) State.reset = .next (State.reset.respond (.ok (.config ⟨1, 1, 4, 2⟩ []))) ∧
      exec (.regDecodeCmd 0x00000003) State.reset = .next (State.reset.respond (.ok (.cmd ⟨3⟩ []))) ∧
      exec (.regDecodePwrCtl 0x00000004) State.reset = .next (State.reset.respond (.ok (.pwrCtl ⟨4⟩ []))) ∧
      exec (.regDecodeVendorHw 0xFFFFFFFF) State.reset = .next (State.reset.respond (.ok (.vendorHw ⟨65535, 65535⟩ []))) ∧
      exec (.regDecodeHwRev 0xFFFFFFFF) State.reset = .next (State.reset.respond (.ok (.hwRev ⟨4294967295⟩ []))) ∧
      exec (.regDecodeFwRev 0xFFFFFFFF) State.reset = .next (State.reset.respond (.ok (.fwRev ⟨4294967295⟩ []))) ∧
      exec (.regDecodeCompat 0xFFFFFFFF) State.reset = .next (State.reset.respond (.ok (.compat ⟨255, 255, 255, 255⟩ []))) ∧
      exec (.regDecodeTestCtl 0xFFFFFFFF) State.reset = .next (State.reset.respond (.ok (.testCtl ⟨4294967295⟩ []))) ∧
      exec (.regDecodeStatus 0x5A00000B) State.reset =
        .next (State.reset.respond (.ok (.status ⟨1, 5, 0, 0, 0, 0x5A⟩ [.reg .intType] false))) ∧
      exec (.regDecodeFrameChar 0x00000000) State.reset = .next (State.reset.respond (.ok (.frameChar ⟨0, 0, 0, 0⟩ []))) ∧
      exec (.regDecodeConfig 0x00000094) State.reset =
        .next (State.reset.respond (.ok (.config ⟨0, 0, 5, 2⟩ [.reg .bulkXferSize]))) ∧
      exec (.regDecodeCmd 0x00000004) State.reset = .next (State.reset.respond (.ok (.cmd ⟨4⟩ [.reg .commandCode]))) ∧
      exec (.regDecodePwrCtl 0x00000005) State.reset = .next (State.reset.respond (.ok (.pwrCtl ⟨5⟩ [.reg .pwrStateCmd]))) :=
  ⟨eq_of_isNext (by decide), eq_of_isNext (by decide), eq_of_isNext (by decide), eq_of_isNext (by decide), eq_of_isNext (by decide), eq_of_isNext (by decide), eq_of_isNext (by decide), eq_of_isNext (by decide), eq_of_isNext (by decide), eq_of_isNext (by decide), eq_of_isNext (by decide), eq_of_isNext (by decide), eq_of_isNext (by decide), eq_of_isNext (by decide), eq_of_isNext (by decide), eq_of_isNext (by decide), eq_of_isNext (by decide), eq_of_isNext (by decide), eq_of_isNext (by decide)⟩

/-- FramePushResult and FrameResetResult: an instance that exists, the last one, and one that does not -/
theorem witness_instances :
    State.reset.instances[0]? = some Reassembler.reset ∧ State.reset.instances[1]? = some Reassembler.reset ∧
      1 < State.reset.instances.length ∧ State.reset.instances.length ≤ 2 := by decide

/-- FrameRequestsTouchTheirInstanceAlone: two states that share instance 0 alone -/
theorem witness_sharedInstance :
    State.reset.instances[0]? = (withInstance Reassembler.reset).instances[0]? ∧
      ({ State.reset with instances := [Reassembler.reset, ⟨.faulted, [], 0, 0, 0, 0⟩] } : State).instances[0]? =
        State.reset.instances[0]? ∧
      (Instr.framePush 0 0 [] = .framePush 0 0 [] ∨ Instr.framePush 0 0 [] = .frameReset 0) := by decide

/-- FrameRequestsToTwoInstancesCommute -/
theorem witness_twoInstances :
    (0 : Nat) ≠ 1 ∧ ((∃ fc data, Instr.framePush 0 0 [] = .framePush 0 fc data) ∨ Instr.framePush 0 0 [] = .frameReset 0) ∧
      ((∃ fc data, Instr.frameReset 1 = .framePush 1 fc data) ∨ Instr.frameReset 1 = .frameReset 1) :=
  ⟨by decide, .inl ⟨0, [], rfl⟩, .inr rfl⟩

/-- StepKeepsReassemblerInvariant: a state with a collecting instance, and its next state -/
theorem witness_invariant :
    ({ withInstance ⟨.collecting, [1, 2], 2, 1, 2, 1⟩ with pending := [Request.ofSel 0x1001] } : State).Inv ∧
      step { withInstance ⟨.collecting, [1, 2], 2, 1, 2, 1⟩ with pending := [Request.ofSel 0x1001] } =
        .next (State.reset.respond (.ok .resetDone)) := by
  refine ⟨?_, eq_of_isNext (by decide)⟩
  intro R hR
  simp only [withInstance, List.mem_cons, List.not_mem_nil, or_false] at hR
  rcases hR with rfl | rfl
  · simp [Reassembler.Inv]
  · simp [Reassembler.Inv, Reassembler.reset]

/-- The requests of a frame of `n` micro-frames of one byte, issued to instance 0. -/
def frameRequests (n : Nat) : State :=
  { State.reset with
    pending := (List.replicate n [7]).mapIdx fun k c => encode (.framePush 0 (fcWord 1 (List.replicate n ([7] : Bytes)).length (k + 1) 1) c) }

/-- OrderedMicroFramesYieldOneFrame: a frame of one micro-frame and one of 31, of 1 byte each, with the HID flag -/
theorem witness_orderedFrames :
    State.reset.instances[0]? = some Reassembler.reset ∧ Reassembler.reset.phase = .idle ∧
      (∀ c ∈ (List.replicate 1 [7] : List Bytes), c.length = 1) ∧
      (frameRequests 1).pending = ((List.replicate 1 [7]).mapIdx fun k c =>
        encode (.framePush 0 (fcWord 1 (List.replicate 1 ([7] : Bytes)).length (k + 1) 1) c)) ++ [] ∧
      (∀ c ∈ (List.replicate 31 [7] : List Bytes), c.length = 1) ∧
      (frameRequests 31).pending = ((List.replicate 31 [7]).mapIdx fun k c =>
        encode (.framePush 0 (fcWord 1 (List.replicate 31 ([7] : Bytes)).length (k + 1) 1) c)) ++ [] :=
  ⟨by decide, by decide, by decide, (List.append_nil _).symm, by decide, (List.append_nil _).symm⟩

/-- SkippedIndexFaultsTheFrame: three empty micro-frames (n at its least), and 31 of one byte, from Faulted -/
theorem witness_skippedIndex :
    (State.reset.instances[0]? = some Reassembler.reset ∧ Reassembler.reset.phase = .idle ∧ ([] : Bytes).length = 0) ∧
      (withInstance ⟨.faulted, [], 0, 0, 0, 0⟩).instances[0]? = some ⟨.faulted, [], 0, 0, 0, 0⟩ ∧
      ([7] : Bytes).length = 1 ∧ 1 < 2 ^ 18 := by decide

/-- SingleMicroFrameCompletesUnlessCollecting: an Idle, a Faulted and a Collecting instance that satisfies R22 -/
theorem witness_single :
    State.reset.instances[0]? = some Reassembler.reset ∧ Reassembler.reset.phase = .idle ∧
      (withInstance ⟨.faulted, [], 0, 0, 0, 0⟩).instances[0]? = some ⟨.faulted, [], 0, 0, 0, 0⟩ ∧
      (withInstance ⟨.collecting, [1, 2], 2, 1, 2, 1⟩).instances[0]? = some ⟨.collecting, [1, 2], 2, 1, 2, 1⟩ ∧
      (⟨.collecting, [1, 2], 2, 1, 2, 1⟩ : Reassembler).Inv ∧ ([7] : Bytes).length = 1 :=
  ⟨by decide, by decide, by decide, by decide, by simp [Reassembler.Inv], rfl⟩

/-- OnlyWholeFramesAreDelivered: a frame of one micro-frame, and the last of two -/
theorem witness_delivered :
    exec (.framePush 0 0x10840001 [7]) State.reset = .next (State.reset.respond (.ok (.complete [7] 1))) ∧
      exec (.framePush 0 0x11080002 [3, 4]) (withInstance ⟨.collecting, [1, 2], 2, 1, 2, 1⟩) =
        .next (State.reset.respond (.ok (.complete [1, 2, 3, 4] 1))) :=
  ⟨eq_of_isNext (by decide), eq_of_isNext (by decide)⟩

/-- ParseOfBuildReturnsHeaderAndPayload, the four clauses; the versions built are the host's -/
theorem witness_built :
    exec (.rawBuild ⟨0, 7, 1, 0, 0x11223344⟩ [0xAA, 0xBB, 0xCC]) State.reset =
        .next (State.reset.respond (.ok (.built raw1))) ∧
      exec (.fbBuild ⟨0, 7, 1, 0, 0x1000⟩ [1, 2]) State.reset = .next (State.reset.respond (.ok (.built fb1))) ∧
      exec (.wrBuild ⟨6⟩ [1]) State.reset = .next (State.reset.respond (.ok (.built [6, 0, 0, 0, 1, 0, 0, 0, 1]))) ∧
      exec (.errpBuild ⟨3, 1, 0, ⟨0, 1, 0, 1, 0x1234⟩⟩) State.reset =
        .next (State.reset.respond (.ok (.built [3, 0, 0, 0, 1, 0, 0, 0, 0x02, 0x80, 0x34, 0x12]))) ∧
      State.reset.cfg.hostProtocolVer.toNat = 1 ∧ State.reset.cfg.hostCompatId.toNat = 0 :=
  ⟨eq_of_isNext (by decide), eq_of_isNext (by decide), eq_of_isNext (by decide), eq_of_isNext (by decide), by decide,
    by decide⟩

/-- BuildOfParsedHeaderReturnsTheBytes, the three clauses; trailing bytes are not allowed -/
theorem witness_parsed :
    exec (.rawParse raw1) State.reset = .next (State.reset.respond (.ok
        (.rawParsed ⟨0, 3, 7, 1, 0, zeros 12, 0x11223344, zeros 28⟩ [0xAA, 0xBB, 0xCC] []))) ∧
      (∀ b ∈ zeros 12 ++ zeros 28, b = 0) ∧ 3 ≤ rawMax State.reset.cfg 0 ∧
      exec (.fbParse fb1) State.reset = .next (State.reset.respond (.ok
        (.fbParsed ⟨0, 2, 7, 1, 0, 0x1000, zeros 40⟩ [1, 2] []))) ∧ (∀ b ∈ zeros 40, b = 0) ∧
      exec (.wrParse [6, 0, 0, 0, 1, 0, 0, 0, 1]) State.reset = .next (State.reset.respond (.ok
        (.wrParsed ⟨6, 1⟩ [1] []))) ∧ 1 ≤ writeMax State.reset.cfg 6 ∧ State.reset.cfg.allowTrailingBytes = false :=
  ⟨eq_of_isNext (by decide), by decide, by decide, eq_of_isNext (by decide), by decide, eq_of_isNext (by decide),
    by decide, by decide⟩

/-- MissingViewFieldIsASyntaxError -/
theorem witness_missingField :
    lookupMnemonic "REG.ENCODE.CMD" = some (0x0220, .regEncode .cmd) ∧ RegField.commandCode ∈ fieldsOf .cmd ∧
      ∀ e ∈ ([("other", .lit 0)] : List (String × NumExpr)), e.1 ≠ regName .commandCode := by decide

end Sys2Proof.Tests
end

/-! PROOFS of 00_scope.md: every request is answered by exactly one response. -/

namespace Sys2Proof.Machine

/-- The outcome `o` of an operation run in `s` is a next state with one response more; instances may have new
contents but keep their number, and everything else is as in `s` (R15, R18, R153). -/
def AnswersOnce (s : State) (o : Host.Outcome State Fault Refusal) : Prop :=
  ∃ (L : List Reassembler) (resp : Response),
    o = .next (State.respond { s with instances := L } resp) ∧ L.length = s.instances.length

/-! ## The ways an operation ends -/

theorem answersOnce_respond (s : State) (resp : Response) : AnswersOnce s (.next (s.respond resp)) :=
  ⟨s.instances, resp, rfl, rfl⟩

theorem answersOnce_answer (s : State) (r : Result) : AnswersOnce s (answer s r) := answersOnce_respond s (.ok r)

theorem answersOnce_raiseErr (s : State) (e : Err) : AnswersOnce s (raiseErr s e) := answersOnce_respond s (.err e)

theorem answersOnce_finish (s : State) (x : Except Err Result) : AnswersOnce s (finish s x) :=
  finish_eq s x ▸ answersOnce_respond s (responseTo x)

theorem answersOnce_setInstance (s : State) (d : Nat) (R : Reassembler) (resp : Response) :
    AnswersOnce s (.next ((s.setInstance d R).respond resp)) :=
  ⟨s.instances.set d R, resp, rfl, List.length_set⟩

/-! ## The operations -/

theorem execFramePush_answersOnce (d : Nat) (fc : Word) (data : Bytes) (s : State) :
    AnswersOnce s (execFramePush d fc data s) := by
  cases h : s.instances[d]? with
  | none => exact execFramePush_of_none h fc data ▸ answersOnce_respond s _
  | some R => exact execFramePush_of_some h fc data ▸ answersOnce_setInstance s d _ _

theorem execFrameReset_answersOnce (d : Nat) (s : State) : AnswersOnce s (execFrameReset d s) := by
  cases h : s.instances[d]? with
  | none => exact execFrameReset_of_none h ▸ answersOnce_respond s _
  | some R => exact execFrameReset_of_some h ▸ answersOnce_setInstance s d _ _

/-- Every operation answers: the decoders and the State Interpreter by `answer`, the encoders and the Envelope
codec by `finish`, the Frame Reassembler by its own two ways. -/
theorem exec_answersOnce (i : Instr) (s : State) : AnswersOnce s (exec i s) := by
  cases i with
  | framePush d fc data => exact execFramePush_answersOnce d fc data s
  | frameReset d => exact execFrameReset_answersOnce d s
  | regDecodeStatus | regDecodeFrameChar | regDecodeError | regDecodeId | regDecodeDataSize | regDecodeCaps
  | regDecodeConfig | regDecodeCmd | regDecodePwrCtl | regDecodeVendorHw | regDecodeHwRev | regDecodeFwRev
  | regDecodeCompat | regDecodeTestCtl | stateClassify | statePwrval | stateCmdval =>
    exact answersOnce_answer s _
  | regEncodeStatus | regEncodeFrameChar | regEncodeError | regEncodeId | regEncodeDataSize | regEncodeCaps
  | regEncodeConfig | regEncodeCmd | regEncodePwrCtl | regEncodeVendorHw | regEncodeHwRev | regEncodeFwRev
  | regEncodeCompat | regEncodeTestCtl | rawParse | rawBuild | fbParse | fbBuild | wrParse | wrBuild
  | errpParse | errpBuild =>
    exact answersOnce_finish s _

/-- A step takes the oldest request off the queue and answers it, by its error or by its operation. -/
theorem step_answersOnce {s : State} {r : Request} {rest : List Request} (hp : s.pending = r :: rest) :
    AnswersOnce { s with pending := rest } (step s) := by
  cases hd : decode r with
  | error e => exact step_of_decode_error hp hd ▸ answersOnce_raiseErr _ e
  | ok i => exact step_of_decode_ok hp hd ▸ exec_answersOnce i _

/-- Settles O6: an operation answers once from the state without its request (`step_answersOnce`). -/
theorem everyRequestGetsOneResponse : Obligations.EveryRequestGetsOneResponse := by
  intro s r rest hp
  obtain ⟨L, resp, hstep, hlen⟩ := step_answersOnce hp
  exact ⟨_, resp, hstep, rfl, rfl, rfl, hlen⟩

end Sys2Proof.Machine

/-! PROOFS of 10_state.md: what a FRAME request touches, that the other units hold no state, and the invariant of
the instances. -/

namespace Sys2Proof.Machine

/-! ## The stateless units -/

/-- FRAME.PUSH or FRAME.RESET of Frame Reassembler `d`: the instructions of the unit that holds state (R16, R23). -/
def IsFrameRequest (i : Instr) (d : Nat) : Prop := (∃ fc data, i = .framePush d fc data) ∨ i = .frameReset d

/-- Two states of one configuration: outside the Frame Reassembler an instruction adds the same response to both
and does nothing else, whatever their instances, queues and logs hold (R16, R36). -/
theorem exec_stateless {i : Instr} (hi : ∀ d, ¬ IsFrameRequest i d) {s s' : State} (h : s.cfg = s'.cfg) :
    ∃ resp, exec i s = .next (s.respond resp) ∧ exec i s' = .next (s'.respond resp) := by
  obtain ⟨L, cfg, p, rs⟩ := s
  obtain ⟨L', cfg', p', rs'⟩ := s'
  obtain rfl : cfg = cfg' := h
  cases i with
  | framePush d fc data => exact absurd (.inl ⟨fc, data, rfl⟩) (hi d)
  | frameReset d => exact absurd (.inr rfl) (hi d)
  | regDecodeStatus | regDecodeFrameChar | regDecodeError | regDecodeId | regDecodeDataSize | regDecodeCaps
  | regDecodeConfig | regDecodeCmd | regDecodePwrCtl | regDecodeVendorHw | regDecodeHwRev | regDecodeFwRev
  | regDecodeCompat | regDecodeTestCtl | stateClassify | statePwrval | stateCmdval =>
    exact ⟨_, answer_eq _ _, answer_eq _ _⟩
  | regEncodeStatus | regEncodeFrameChar | regEncodeError | regEncodeId | regEncodeDataSize | regEncodeCaps
  | regEncodeConfig | regEncodeCmd | regEncodePwrCtl | regEncodeVendorHw | regEncodeHwRev | regEncodeFwRev
  | regEncodeCompat | regEncodeTestCtl | rawParse | rawBuild | fbParse | fbBuild | wrParse | wrBuild
  | errpParse | errpBuild =>
    exact ⟨_, finish_eq _ _, finish_eq _ _⟩

/-- Settles O8: the function asked for is the response at reset under that configuration, and `exec_stateless`
carries it to every state. -/
theorem statelessUnitsOnlyAnswer : Obligations.StatelessUnitsOnlyAnswer := by
  intro i hpush hreset
  have hi : ∀ d, ¬ IsFrameRequest i d := by
    rintro d (⟨fc, data, h⟩ | h)
    · exact hpush d fc data h
    · exact hreset d h
  choose f hf _ using fun cfg => exec_stateless hi (s := State.resetWith cfg 0) rfl
  refine ⟨f, fun s => ?_⟩
  obtain ⟨resp, h₀, hs⟩ := exec_stateless hi (s := State.resetWith s.cfg 0) (s' := s) rfl
  exact respond_inj ((hf s.cfg).symm.trans h₀) ▸ hs

/-! ## A FRAME request and its reassembler -/

/-- What a FRAME request of reassembler `d` leaves: one that exists becomes what `act` makes of it, and `act` gives
the response; where there is none, the response is `absent` (R23). -/
def State.atInstance (s : State) (d : Nat) (absent : Response) (act : Reassembler → Reassembler × Response) : State :=
  { s with
    instances := s.instances.modify d fun R => (act R).1
    responses := s.responses ++ [s.instances[d]?.elim absent fun R => (act R).2] }

theorem atInstance_of_none {s : State} {d : Nat} (h : s.instances[d]? = none) (absent : Response)
    (act : Reassembler → Reassembler × Response) : s.atInstance d absent act = s.respond absent := by
  have hd : s.instances.length ≤ d := List.getElem?_eq_none_iff.mp h
  simp [State.atInstance, State.respond, h, List.modify_eq_self hd]

theorem atInstance_of_some {s : State} {d : Nat} {R : Reassembler} (h : s.instances[d]? = some R) (absent : Response)
    (act : Reassembler → Reassembler × Response) :
    s.atInstance d absent act = (s.setInstance d (act R).1).respond (act R).2 := by
  simp [State.atInstance, State.respond, State.setInstance, h, List.modify_eq_set_getElem?]

theorem exec_framePush (d : Nat) (fc : Word) (data : Bytes) (s : State) :
    exec (.framePush d fc data) s =
      .next (s.atInstance d (.err (.unknownOperation 0x1000)) fun R => pushFrame R fc data) := by
  change execFramePush d fc data s = _
  cases h : s.instances[d]? with
  | none => rw [execFramePush_of_none h, atInstance_of_none h]
  | some R => rw [execFramePush_of_some h, atInstance_of_some h]

theorem exec_frameReset (d : Nat) (s : State) :
    exec (.frameReset d) s =
      .next (s.atInstance d (.err (.unknownOperation 0x1001)) fun _ => (Reassembler.reset, .ok .resetDone)) := by
  change execFrameReset d s = _
  cases h : s.instances[d]? with
  | none => rw [execFrameReset_of_none h, atInstance_of_none h]
  | some R => rw [execFrameReset_of_some h, atInstance_of_some h]

theorem atInstance_getElem?_self (s : State) (d : Nat) (absent : Response)
    (act : Reassembler → Reassembler × Response) :
    (s.atInstance d absent act).instances[d]? = s.instances[d]?.map fun R => (act R).1 := by
  simp [State.atInstance]

theorem atInstance_getElem?_ne (s : State) {d e : Nat} (h : e ≠ d) (absent : Response)
    (act : Reassembler → Reassembler × Response) :
    (s.atInstance d absent act).instances[e]? = s.instances[e]? := by
  simp [State.atInstance, h.symm]

/-- One action stands for a FRAME request in every state. -/
theorem exec_of_isFrameRequest {i : Instr} {d : Nat} (h : IsFrameRequest i d) :
    ∃ absent act, ∀ s : State, exec i s = .next (s.atInstance d absent act) := by
  obtain ⟨fc, data, rfl⟩ | rfl := h
  · exact ⟨_, _, exec_framePush d fc data⟩
  · exact ⟨_, _, exec_frameReset d⟩

/-- Settles O30: the response and the new reassembler `d` are functions of the old one, and `atInstance` writes no
other. -/
theorem frameRequestsTouchTheirInstanceAlone : Obligations.FrameRequestsTouchTheirInstanceAlone := by
  intro d fc data i hi s s' hd
  obtain ⟨absent, act, hexec⟩ := exec_of_isFrameRequest (hi.imp_left fun h => ⟨fc, data, h⟩)
  refine ⟨_, _, _, hexec s, hexec s', rfl, ?_, ?_, fun e he => ?_, fun e he => ?_⟩
  · simp only [State.atInstance, hd]
  · simp only [atInstance_getElem?_self, hd]
  · exact atInstance_getElem?_ne s he absent act
  · exact atInstance_getElem?_ne s' he absent act

/-! ## The invariant of one reassembler (R22) -/

theorem inv_reset : Reassembler.reset.Inv := rfl

theorem inv_faultWith (r : ReassemblyReason) : (faultWith r).1.Inv := rfl

theorem inv_iff_of_collecting {R : Reassembler} (h : R.phase = .collecting) :
    R.Inv ↔ 1 ≤ R.last ∧ R.last < R.mfpf ∧ R.mfpf ≤ 31 ∧ R.buf.length = R.last * R.mfs ∧ R.buf.length ≤ 32768 ∧
      R.mfs ≤ 262143 ∧ R.hid ≤ 1 := by
  simp only [Reassembler.Inv, h]

/-- The fields of a snapshot fit their widths (R51). -/
theorem decodeFrameChar_bounds (fc : Word) :
    (decodeFrameChar fc).microframeSize ≤ 262143 ∧ (decodeFrameChar fc).microframesPerFrame ≤ 31 ∧
      (decodeFrameChar fc).hidReport ≤ 1 := by
  rw [frameChar_size, frameChar_count, frameChar_hid]
  omega

/-- The frame just opened holds its first micro-frame, and is not complete: its count is not 1. -/
theorem openFrame_inv {v : FrameCharView} {data : Bytes} (hcount : v.microframesPerFrame ≤ 31)
    (hsize : v.microframeSize ≤ 262143) (hhid : v.hidReport ≤ 1) (hindex : v.microframeIndex ≤ v.microframesPerFrame)
    (hdata : data.length = v.microframeSize) : (openFrame v data).1.Inv := by
  obtain ⟨r, h⟩ | ⟨-, -, -, h⟩ | ⟨hfirst, hmax, hmany, h⟩ := openFrame_cases v data
  · exact h ▸ inv_faultWith r
  · exact h ▸ inv_reset
  · rw [h, inv_iff_of_collecting rfl]
    dsimp only
    omega

/-- The micro-frame appended is the next one and not the last, and adds one size to the buffer. -/
theorem appendFrame_inv {R : Reassembler} {v : FrameCharView} {data : Bytes} (hphase : R.phase = .collecting)
    (hR : R.Inv) (hindex : v.microframeIndex ≤ v.microframesPerFrame) (hdata : data.length = v.microframeSize) :
    (appendFrame R v data).1.Inv := by
  obtain ⟨r, h⟩ | ⟨⟨hcount, hnext, hsize, -, hmax⟩, ⟨-, h⟩ | ⟨hmore, h⟩⟩ := appendFrame_cases R v data
  · exact h ▸ inv_faultWith r
  · exact h ▸ inv_reset
  · rw [inv_iff_of_collecting hphase] at hR
    obtain ⟨-, -, hmfpf, hbuf, -, hmfs, hhid⟩ := hR
    have hlen : (R.buf ++ data).length = (R.last + 1) * R.mfs := by
      rw [List.length_append, hbuf, hdata, hsize, Nat.succ_mul]
    have hfits : (R.buf ++ data).length ≤ 32768 := by rwa [List.length_append, hdata]
    have hopen : R.last + 1 < R.mfpf := by omega
    rw [h, hnext]
    exact (inv_iff_of_collecting (R := { R with buf := R.buf ++ data, last := R.last + 1 }) hphase).mpr
      ⟨Nat.le_add_left 1 R.last, hopen, hmfpf, hlen, hfits, hmfs, hhid⟩

theorem pushFrame_inv {R : Reassembler} (hR : R.Inv) (fc : Word) (data : Bytes) : (pushFrame R fc data).1.Inv := by
  obtain ⟨hsize, hcount, hhid⟩ := decodeFrameChar_bounds fc
  obtain ⟨-, -, h⟩ | ⟨r, h⟩ | ⟨⟨-, hindex, hdata⟩, ⟨-, h⟩ | ⟨hphase, h⟩⟩ := pushFrame_cases R fc data
  · exact h ▸ hR
  · exact h ▸ inv_faultWith r
  · exact h ▸ openFrame_inv hcount hsize hhid hindex hdata
  · exact h ▸ appendFrame_inv hphase hR hindex hdata

/-! ## The invariant of a state -/

theorem atInstance_inv {s : State} (hs : s.Inv) {act : Reassembler → Reassembler × Response}
    (hact : ∀ R : Reassembler, R.Inv → (act R).1.Inv) (d : Nat) (absent : Response) :
    (s.atInstance d absent act).Inv := by
  intro R hR
  obtain ⟨e, he⟩ := List.mem_iff_getElem?.mp hR
  by_cases hed : e = d
  · rw [hed, atInstance_getElem?_self, Option.map_eq_some_iff] at he
    obtain ⟨R₀, h₀, rfl⟩ := he
    exact hact R₀ (hs R₀ (List.mem_of_getElem? h₀))
  · rw [atInstance_getElem?_ne s hed] at he
    exact hs R (List.mem_of_getElem? he)

/-- An instruction is FRAME.PUSH, FRAME.RESET, or one of a unit that only answers. -/
theorem exec_inv {i : Instr} {s t : State} (hs : s.Inv) (h : exec i s = .next t) : t.Inv := by
  by_cases hi : ∃ d, IsFrameRequest i d
  · obtain ⟨d, ⟨fc, data, rfl⟩ | rfl⟩ := hi
    · cases (exec_framePush d fc data s).symm.trans h
      exact atInstance_inv hs (fun R hR => pushFrame_inv hR fc data) d _
    · cases (exec_frameReset d s).symm.trans h
      exact atInstance_inv hs (fun _ _ => inv_reset) d _
  · obtain ⟨resp, hexec, -⟩ := exec_stateless (not_exists.mp hi) (rfl : s.cfg = s.cfg)
    cases hexec.symm.trans h
    exact hs

/-- Settles O32: a step does nothing, answers an illegal selector by its error, or runs an instruction
(`exec_inv`); taking a request off the queue touches no reassembler. -/
theorem stepKeepsReassemblerInvariant : Obligations.StepKeepsReassemblerInvariant := by
  intro s t hs hstep
  obtain ⟨-, h⟩ | ⟨r, rest, -, ⟨e, -, h⟩ | ⟨i, -, h⟩⟩ := step_cases s
  · cases h.symm.trans hstep
    exact hs
  · cases h.symm.trans hstep
    exact hs
  · exact exec_inv (s := { s with pending := rest }) hs (h.symm.trans hstep)

/-! ## Reset -/

theorem eq_reset_of_mem_resetWith {cfg : Config} {n : Nat} {R : Reassembler}
    (h : R ∈ (State.resetWith cfg n).instances) : R = Reassembler.reset := List.eq_of_mem_replicate h

theorem length_instances_resetWith (cfg : Config) (n : Nat) : (State.resetWith cfg n).instances.length = n :=
  List.length_replicate

theorem resetWith_inv (cfg : Config) (n : Nat) : (State.resetWith cfg n).Inv :=
  fun _ hR => eq_reset_of_mem_resetWith hR ▸ inv_reset

/-- Settles O29: all of them are `Reassembler.reset`, whose fields these are. -/
theorem resetPutsEveryInstanceIdle : Obligations.ResetPutsEveryInstanceIdle := by
  refine ⟨fun cfg n => ⟨length_instances_resetWith cfg n, fun R hR => ?_⟩, resetConfig, resetDevices, rfl⟩
  obtain rfl := eq_reset_of_mem_resetWith hR
  exact ⟨rfl, rfl, rfl, rfl, rfl, rfl⟩

/-- Settles O33: `State.reset` is one of the states of `resetWith_inv`. -/
theorem resetHasReassemblerInvariant : Obligations.ResetHasReassemblerInvariant :=
  ⟨resetWith_inv resetConfig resetDevices, resetWith_inv⟩

end Sys2Proof.Machine

/-! PROOFS of 20_memory.md: requests to two Frame Reassemblers do not see one another, and a step runs what its
request decodes to. -/

namespace Sys2Proof.Machine

/-! ## Two FRAME requests, one after the other -/

theorem atInstance_instances_comm (s : State) {d e : Nat} (h : d ≠ e) (absent absent' : Response)
    (act act' : Reassembler → Reassembler × Response) :
    ((s.atInstance d absent act).atInstance e absent' act').instances =
      ((s.atInstance e absent' act').atInstance d absent act).instances :=
  List.modify_modify_ne _ _ _ h

/-- Both responses are functions of the instances as they stood before the first request. -/
theorem atInstance_atInstance_responses (s : State) {d e : Nat} (h : e ≠ d) (absent absent' : Response)
    (act act' : Reassembler → Reassembler × Response) :
    ((s.atInstance d absent act).atInstance e absent' act').responses =
      s.responses ++ [s.instances[d]?.elim absent fun R => (act R).2,
        s.instances[e]?.elim absent' fun R => (act' R).2] := by
  calc ((s.atInstance d absent act).atInstance e absent' act').responses
      = (s.responses ++ [s.instances[d]?.elim absent fun R => (act R).2]) ++
          [(s.atInstance d absent act).instances[e]?.elim absent' fun R => (act' R).2] := rfl
    _ = _ := by rw [atInstance_getElem?_ne s h, List.append_assoc, List.singleton_append]

/-- Settles O31: each request modifies its own instance, so the other finds its instance as it was, whichever of
the two is first. -/
theorem frameRequestsToTwoInstancesCommute : Obligations.FrameRequestsToTwoInstancesCommute := by
  intro d e a b s hde ha hb
  obtain ⟨absentA, actA, hexecA⟩ := exec_of_isFrameRequest ha
  obtain ⟨absentB, actB, hexecB⟩ := exec_of_isFrameRequest hb
  exact ⟨_, _, _, _, _, _, hexecA s, hexecB _, hexecB s, hexecA _, atInstance_instances_comm s hde _ _ _ _,
    atInstance_atInstance_responses s hde.symm _ _ _ _, atInstance_atInstance_responses s hde _ _ _ _⟩

/-! ## The step and its instruction -/

/-- Settles O4: it is the branch of `step` for a request that decodes. -/
theorem stepRunsTheDecodedInstruction : Obligations.StepRunsTheDecodedInstruction :=
  fun _ _ _ _ hp hd => step_of_decode_ok hp hd

end Sys2Proof.Machine

/-! PROOFS of 30_encoding.md: which requests the decoder reads as which instructions, the error of every other
selector, and what the assembler makes of a record. -/

namespace Sys2Proof.Machine

/-! ## The decoder, said once (R44, R45) -/

theorem kindAt_eq_some_iff {n : Nat} {k : RegKind} : kindAt n = some k ↔ n = offsetOf k := by
  constructor
  · intro h
    unfold kindAt at h
    split at h <;> cases h <;> rfl
  · rintro rfl
    cases k <;> rfl

/-- The requests that are legal: a kind's offset in a register class, or a row of `unitOp`. -/
theorem decode_eq_ok_iff {r : Request} {i : Instr} :
    decode r = .ok i ↔
      (selClass r.sel = 1 ∧ ∃ k, selSub r.sel = offsetOf k ∧ i = regDecodeOf k r.word) ∨
        (selClass r.sel = 2 ∧ ∃ k, selSub r.sel = offsetOf k ∧ i = regEncodeOf k r.view) ∨
        unitOp (selClass r.sel) (selSub r.sel) r = some i := by
  constructor
  · intro h
    unfold decode at h
    split at h
    next hc => split at h <;> cases h; exact .inl ⟨hc, _, kindAt_eq_some_iff.mp ‹_›, rfl⟩
    next hc => split at h <;> cases h; exact .inr (.inl ⟨hc, _, kindAt_eq_some_iff.mp ‹_›, rfl⟩)
    next => split at h <;> cases h; exact .inr (.inr ‹_›)
  · rintro (⟨hc, k, hk, rfl⟩ | ⟨hc, k, hk, rfl⟩ | hu)
    · simp only [decode, hc, kindAt_eq_some_iff.mpr hk]
    · simp only [decode, hc, kindAt_eq_some_iff.mpr hk]
    · unfold decode
      split
      next hc => simp [hc, unitOp] at hu
      next hc => simp [hc, unitOp] at hu
      next => simp only [hu]

/-- The error that answers an illegal selector (R46). -/
def illegalSelector (sel : Sel) : Err :=
  if sel.toNat / 256 = 1 ∨ sel.toNat / 256 = 2 then .unknownRegister (BitVec.ofNat 8 (sel.toNat % 256))
  else .unknownOperation sel

theorem eq_illegalSelector_of_decode {r : Request} {e : Err} (h : decode r = .error e) : e = illegalSelector r.sel := by
  unfold decode at h
  split at h
  next hc => split at h <;> cases h; exact (if_pos (.inl hc)).symm
  next hc => split at h <;> cases h; exact (if_pos (.inr hc)).symm
  next h1 h2 => split at h <;> cases h; exact (if_neg (not_or.mpr ⟨h1, h2⟩)).symm

/-! ## The encoder's requests -/

theorem decode_regDecodeReq (k : RegKind) (w : Word) : decode (regDecodeReq k w) = .ok (regDecodeOf k w) := by
  have hc : selClass (regDecodeReq k 0).sel = 1 := by cases k <;> decide
  have hk : selSub (regDecodeReq k 0).sel = offsetOf k := by cases k <;> decide
  exact decode_eq_ok_iff.mpr (.inl ⟨hc, k, hk, rfl⟩)

theorem decode_regEncodeReq (k : RegKind) (v : ViewPort) : decode (regEncodeReq k v) = .ok (regEncodeOf k v) := by
  have hc : selClass (regEncodeReq k .zero).sel = 2 := by cases k <;> decide
  have hk : selSub (regEncodeReq k .zero).sel = offsetOf k := by cases k <;> decide
  exact decode_eq_ok_iff.mpr (.inr (.inl ⟨hc, k, hk, rfl⟩))

/-- Settles O1: an instruction of the Register codec is its kind's, every other one has a row of `unitOp`. -/
theorem decodeOfEncodeIsTheInstruction : Obligations.DecodeOfEncodeIsTheInstruction := by
  intro i
  cases i with
  | regDecodeStatus | regDecodeFrameChar | regDecodeError | regDecodeId | regDecodeDataSize | regDecodeCaps
  | regDecodeConfig | regDecodeCmd | regDecodePwrCtl | regDecodeVendorHw | regDecodeHwRev | regDecodeFwRev
  | regDecodeCompat | regDecodeTestCtl =>
    exact decode_regDecodeReq _ _
  | regEncodeStatus | regEncodeFrameChar | regEncodeError | regEncodeId | regEncodeDataSize | regEncodeCaps
  | regEncodeConfig | regEncodeCmd | regEncodePwrCtl | regEncodeVendorHw | regEncodeHwRev | regEncodeFwRev
  | regEncodeCompat | regEncodeTestCtl =>
    exact decode_regEncodeReq _ _
  | framePush | frameReset | rawParse | rawBuild | fbParse | fbBuild | wrParse | wrBuild | errpParse | errpBuild
  | stateClassify | statePwrval | stateCmdval =>
    exact decode_eq_ok_iff.mpr (.inr (.inr (by simp [encode, Request.ofSel, selClass, selSub, unitOp])))

/-- Settles O2: seven closed words, evaluated. -/
theorem selectorWordsDecodeAsListed : Obligations.SelectorWordsDecodeAsListed := by
  unfold Obligations.SelectorWordsDecodeAsListed
  decide

/-! ## Legal selectors (R45, R46) -/

theorem selectorOf_regDecodeOf (k : RegKind) (w : Word) :
    (selectorOf (regDecodeOf k w)).toNat = 256 * 1 + offsetOf k := by
  cases k <;> rfl

theorem selectorOf_regEncodeOf (k : RegKind) (v : ViewPort) :
    (selectorOf (regEncodeOf k v)).toNat = 256 * 2 + offsetOf k := by
  cases k <;> rfl

theorem selectorOf_of_unitOp {cls sub : Nat} {r : Request} {i : Instr} (h : unitOp cls sub r = some i) :
    (selectorOf i).toNat = 256 * cls + sub := by
  unfold unitOp at h
  split at h <;> cases h <;> rfl

theorem toNat_eq_selClass_selSub (sel : Sel) : sel.toNat = 256 * selClass sel + selSub sel :=
  (Nat.div_add_mod ..).symm

/-- An instruction is read from its own selector alone. -/
theorem selectorOf_of_decode {r : Request} {i : Instr} (h : decode r = .ok i) : selectorOf i = r.sel := by
  apply BitVec.eq_of_toNat_eq
  rw [toNat_eq_selClass_selSub r.sel]
  rcases decode_eq_ok_iff.mp h with ⟨hc, k, hk, rfl⟩ | ⟨hc, k, hk, rfl⟩ | hu
  · rw [selectorOf_regDecodeOf, hc, hk]
  · rw [selectorOf_regEncodeOf, hc, hk]
  · exact selectorOf_of_unitOp hu

/-- The selectors of the operation table. -/
def legalSelectors : List Nat := opTable.map fun row => row.2.1.toNat

/-- The row of an instruction does not depend on its operands, so each constructor's membership evaluates. -/
theorem selectorOf_mem_legalSelectors (i : Instr) : (selectorOf i).toNat ∈ legalSelectors := by
  cases i <;> exact of_decide_eq_true rfl

theorem unitOp_isSome_congr (cls sub : Nat) (r r' : Request) :
    (unitOp cls sub r).isSome = (unitOp cls sub r').isSome := by
  fun_cases unitOp cls sub r <;> simp [unitOp]

/-- No operand decides whether a selector is legal (R46). -/
theorem exists_decode_of_sel_eq {r r' : Request} {i : Instr} (hsel : r.sel = r'.sel) (h : decode r = .ok i) :
    ∃ i', decode r' = .ok i' := by
  simp only [decode_eq_ok_iff, hsel] at h ⊢
  rcases h with ⟨hc, k, hk, -⟩ | ⟨hc, k, hk, -⟩ | hu
  · exact ⟨_, .inl ⟨hc, k, hk, rfl⟩⟩
  · exact ⟨_, .inr (.inl ⟨hc, k, hk, rfl⟩)⟩
  · have hsome := unitOp_isSome_congr (selClass r'.sel) (selSub r'.sel) r r'
    rw [hu] at hsome
    obtain ⟨i', hi'⟩ := Option.isSome_iff_exists.mp hsome.symm
    exact ⟨i', .inr (.inr hi')⟩

theorem exists_decode_tableRequest {n : Nat} (h : n ∈ legalSelectors) : ∃ i, decode (tableRequest n) = .ok i := by
  have hok : ∀ n ∈ legalSelectors, (decode (tableRequest n)).isOk := by decide
  cases hd : decode (tableRequest n) with
  | ok i => exact ⟨i, rfl⟩
  | error e => simpa [hd, Except.isOk, Except.toBool] using hok n h

theorem exists_decode_iff {r : Request} : (∃ i, decode r = .ok i) ↔ r.sel.toNat ∈ legalSelectors := by
  constructor
  · rintro ⟨i, hi⟩
    exact selectorOf_of_decode hi ▸ selectorOf_mem_legalSelectors i
  · intro h
    obtain ⟨i, hi⟩ := exists_decode_tableRequest h
    exact exists_decode_of_sel_eq (by simp [tableRequest, Request.ofSel]) hi

/-- A selector outside the table is answered by its error, and nothing but the queue and the log changes (R46). -/
theorem step_of_notMem_legalSelectors {s : State} {r : Request} {rest : List Request} (hp : s.pending = r :: rest)
    (h : r.sel.toNat ∉ legalSelectors) :
    step s = .next { s with pending := rest, responses := s.responses ++ [.err (illegalSelector r.sel)] } := by
  cases hd : decode r with
  | ok i => exact absurd (exists_decode_iff.mp ⟨i, hd⟩) h
  | error e => rw [step_of_decode_error hp hd, eq_illegalSelector_of_decode hd]

/-- Settles O3: the statement's list is `legalSelectors` written out. -/
theorem selectorsAreLegalOrAnsweredByTheirError : Obligations.SelectorsAreLegalOrAnsweredByTheirError := by
  intro s r rest hp
  constructor
  · intro (hlegal : r.sel.toNat ∈ legalSelectors)
    obtain ⟨i, hi⟩ := exists_decode_iff.mpr hlegal
    exact ⟨i, hi, selectorOf_of_decode hi⟩
  · exact step_of_notMem_legalSelectors hp

/-! ## Lines of a program (R47, R48) -/

theorem assemble_of_checkOperands_some {m : String} {sel : Sel} {form : LineForm} {ops : List Operand} {e : SyntaxError}
    (hm : lookupMnemonic m = some (sel, form)) (hc : checkOperands form ops = some e) (env : Bindings)
    (bind : Option String) : assemble env ⟨bind, m, ops⟩ = .error e := by
  simp only [assemble, checkLine, hm, hc]

theorem assemble_of_checkOperands_none {m : String} {sel : Sel} {form : LineForm} {ops : List Operand}
    (hm : lookupMnemonic m = some (sel, form)) (hc : checkOperands form ops = none) (env : Bindings)
    (bind : Option String) : assemble env ⟨bind, m, ops⟩ = assembleOperands env sel form ops := by
  simp only [assemble, checkLine, hm, hc]

/-- A record that leaves a field out has an error; the field is never read as zero (R47). -/
theorem exists_checkRecord_of_missing {slots : Slots} {fs : List (String × NumExpr)}
    {sl : String × Option Enumeration} (hsl : sl ∈ slots) (hfs : ∀ e ∈ fs, e.1 ≠ sl.1) :
    ∃ e, checkRecord slots fs = some e := by
  unfold checkRecord
  split
  · exact ⟨_, rfl⟩
  split
  · exact ⟨_, rfl⟩
  split
  · exact ⟨_, rfl⟩
  next hnone =>
    have hlookup : fs.lookup sl.1 = none := by
      rw [List.lookup_eq_none_iff]
      intro e he
      simpa using (hfs e he).symm
    exact absurd hlookup (by simpa using List.find?_eq_none.mp hnone sl hsl)

/-- Settles O52: a nested Error view is an unknown field, and the record's own fields fail `checkRecord`. -/
theorem missingViewFieldIsASyntaxError : Obligations.MissingViewFieldIsASyntaxError := by
  intro k m sel f fs err bind env hm hf hfs
  have hcheck : ∃ e, checkOperands (.regEncode k) [.record ⟨fs, err⟩] = some e := by
    cases err with
    | some nested => exact ⟨_, rfl⟩
    | none => exact exists_checkRecord_of_missing (List.mem_map_of_mem hf) hfs
  obtain ⟨e, he⟩ := hcheck
  exact ⟨e, assemble_of_checkOperands_some hm he env bind⟩

/-- The four header fields of a RAW.BUILDFRAME line, as numbers (R48). -/
def buildFrameRecord (b p c t : Nat) : RecordExpr :=
  { fields := [("buffer_id", .lit b), ("protocol_ver", .lit p), ("compat_id", .lit c), ("transaction_id", .lit t)],
    err := none }

theorem checkOperands_buildFrameRecord (x : String) (b p c t : Nat) :
    checkOperands .buildFrame [.bytes (.named x), .record (buildFrameRecord b p c t)] = none := by
  simp [checkOperands, checkRecordExpr, buildFrameRecord, checkRecord, firstDuplicate, hdrSlots, formFields,
    hdrName, hdrEnum, numValue]

/-- Settles O51: the line's operands are of its form, and its name is found first among the bindings. -/
theorem buildFrameLineExpandsToRawBuild : Obligations.BuildFrameLineExpandsToRawBuild := by
  intro x bs hid b p c t env bind
  have hm : lookupMnemonic "RAW.BUILDFRAME" = some (0x2001, .buildFrame) := rfl
  calc assemble ((x, .complete bs hid) :: env)
        ⟨bind, "RAW.BUILDFRAME", [.bytes (.named x), .record (buildFrameRecord b p c t)]⟩
      = assembleOperands ((x, .complete bs hid) :: env) 0x2001 .buildFrame
          [.bytes (.named x), .record (buildFrameRecord b p c t)] :=
        assemble_of_checkOperands_none hm (checkOperands_buildFrameRecord x b p c t) _ bind
    _ = .ok (encode (rawBuildFrame bs hid b p c t)) := by
        simp only [assembleOperands, List.lookup_cons_self]
        rfl

end Sys2Proof.Machine

/-! PROOFS of 40_register_codec.md: what each REG.DECODE and REG.ENCODE answers, and the round trips between them. -/

namespace Sys2Proof.Machine

/-! ## The views of a kind -/

/-- `view` and `entries` are the reading and the listing of the views of kind `k`: the listing of a view shows the
fields of the kind in bit order, and a view is determined by its listing (R77, R78). -/
structure ViewOf (k : RegKind) {V : Type} (view : (RegField → Nat) → V) (entries : V → List (RegField × Nat)) :
    Prop where
  entries_view : ∀ get, entries (view get) = (fieldsOf k).map fun f => (f, get f)
  view_lookup : ∀ v, view (fun f => ((entries v).lookup f).getD 0) = v

theorem viewOf_status : ViewOf .status statusOf statusEntries := ⟨fun _ => rfl, fun _ => rfl⟩
theorem viewOf_frameChar : ViewOf .frameChar frameCharOf frameCharEntries := ⟨fun _ => rfl, fun _ => rfl⟩
theorem viewOf_error : ViewOf .error errorOf errorEntries := ⟨fun _ => rfl, fun _ => rfl⟩
theorem viewOf_id : ViewOf .id idOf idEntries := ⟨fun _ => rfl, fun _ => rfl⟩
theorem viewOf_dataSize : ViewOf .dataSize dataSizeOf dataSizeEntries := ⟨fun _ => rfl, fun _ => rfl⟩
theorem viewOf_caps : ViewOf .caps capsOf capsEntries := ⟨fun _ => rfl, fun _ => rfl⟩
theorem viewOf_config : ViewOf .config configOf configEntries := ⟨fun _ => rfl, fun _ => rfl⟩
theorem viewOf_cmd : ViewOf .cmd cmdOf cmdEntries := ⟨fun _ => rfl, fun _ => rfl⟩
theorem viewOf_pwrCtl : ViewOf .pwrCtl pwrCtlOf pwrCtlEntries := ⟨fun _ => rfl, fun _ => rfl⟩
theorem viewOf_vendorHw : ViewOf .vendorHw vendorHwOf vendorHwEntries := ⟨fun _ => rfl, fun _ => rfl⟩
theorem viewOf_hwRev : ViewOf .hwRev hwRevOf hwRevEntries := ⟨fun _ => rfl, fun _ => rfl⟩
theorem viewOf_fwRev : ViewOf .fwRev fwRevOf fwRevEntries := ⟨fun _ => rfl, fun _ => rfl⟩
theorem viewOf_compat : ViewOf .compat compatOf compatEntries := ⟨fun _ => rfl, fun _ => rfl⟩
theorem viewOf_testCtl : ViewOf .testCtl testCtlOf testCtlEntries := ⟨fun _ => rfl, fun _ => rfl⟩

section
variable {k : RegKind} {V : Type} {view : (RegField → Nat) → V} {entries : V → List (RegField × Nat)}

/-- A listing gives each field of the kind one value. -/
theorem ViewOf.exists_entries_eq (L : ViewOf k view entries) (v : V) :
    ∃ get : RegField → Nat, entries v = (fieldsOf k).map fun f => (f, get f) :=
  ⟨_, (congrArg entries (L.view_lookup v)).symm.trans (L.entries_view _)⟩

/-- A reading that agrees with every listed value of a view reads that view. -/
theorem ViewOf.view_eq (L : ViewOf k view entries) {v : V} {get : RegField → Nat}
    (h : ∀ e ∈ entries v, get e.1 = e.2) : view get = v := by
  obtain ⟨get', hv⟩ := L.exists_entries_eq v
  have hentries : entries (view get) = entries v := by
    rw [L.entries_view, hv]
    refine List.map_congr_left fun f hf => ?_
    rw [h (f, get' f) (hv ▸ List.mem_map_of_mem hf)]
  rw [← L.view_lookup (view get), hentries, L.view_lookup v]

theorem fieldsOf_sorted (k : RegKind) : (fieldsOf k).Pairwise fun f g => fieldHi f < fieldLo g := by
  cases k <;> decide

theorem ViewOf.sorted (L : ViewOf k view entries) (v : V) :
    (entries v).Pairwise fun e e' => fieldHi e.1 < fieldLo e'.1 := by
  obtain ⟨get, hv⟩ := L.exists_entries_eq v
  rw [hv]
  exact List.pairwise_map.mpr (fieldsOf_sorted k)

/-- The fields of an accepted view are read back from its word (R79, law 1). -/
theorem ViewOf.view_readField_packFields (L : ViewOf k view entries) {v : V}
    (hfit : ∀ e ∈ entries v, e.2 < 2 ^ fieldWidth e.1) : view (readField (packFields (entries v))) = v := by
  obtain ⟨get, hv⟩ := L.exists_entries_eq v
  refine L.view_eq fun e he => readField_packFields he hfit fun e' he' hne => ?_
  rw [hv] at he he'
  obtain ⟨f, hf, rfl⟩ := List.mem_map.mp he
  obtain ⟨g, hg, rfl⟩ := List.mem_map.mp he'
  exact fieldsOf_apart k g hg f hf fun hgf => hne (hgf ▸ rfl)

/-- What REG.ENCODE answers with a word is what REG.DECODE reads from that word. -/
theorem ViewOf.decode_encoded (L : ViewOf k view entries) {s : State} {v : V} {w : Word}
    (h : finish s (encodeResult s.cfg (entries v)) = .next (s.respond (.ok (.word w)))) :
    view (readField w) = v := by
  rw [finish_eq] at h
  have hresp := respond_inj h
  rcases encodeFields_cases s.cfg (entries v) with ⟨e, -, -, herr⟩ | ⟨hok, hword⟩
  · simp [encodeResult, herr] at hresp
  · simp only [encodeResult, hword, responseTo_ok, Response.ok.injEq, Result.word.injEq] at hresp
    exact hresp ▸ L.view_readField_packFields fun e he => fits_of_regFieldOk (hok e he)

end

/-- Settles O25: for each kind, `ViewOf.decode_encoded` makes the accepted view the one its word decodes to. -/
theorem decodeOfEncodedViewIsTheView : Obligations.DecodeOfEncodedViewIsTheView :=
  ⟨fun _ _ _ h => viewOf_status.decode_encoded h ▸ ⟨_, _, rfl⟩,
    fun _ _ _ h => viewOf_frameChar.decode_encoded h ▸ ⟨_, rfl⟩,
    fun _ _ _ h => viewOf_error.decode_encoded h ▸ ⟨_, rfl⟩,
    fun _ _ _ h => viewOf_id.decode_encoded h ▸ ⟨_, _, rfl⟩,
    fun _ _ _ h => viewOf_dataSize.decode_encoded h ▸ ⟨_, _, _, rfl⟩,
    fun _ _ _ h => viewOf_caps.decode_encoded h ▸ ⟨_, _, rfl⟩,
    fun _ _ _ h => viewOf_config.decode_encoded h ▸ ⟨_, rfl⟩,
    fun _ _ _ h => viewOf_cmd.decode_encoded h ▸ ⟨_, rfl⟩,
    fun _ _ _ h => viewOf_pwrCtl.decode_encoded h ▸ ⟨_, rfl⟩,
    fun _ _ _ h => viewOf_vendorHw.decode_encoded h ▸ ⟨_, rfl⟩,
    fun _ _ _ h => viewOf_hwRev.decode_encoded h ▸ ⟨_, rfl⟩,
    fun _ _ _ h => viewOf_fwRev.decode_encoded h ▸ ⟨_, rfl⟩,
    fun _ _ _ h => viewOf_compat.decode_encoded h ▸ ⟨_, rfl⟩,
    fun _ _ _ h => viewOf_testCtl.decode_encoded h ▸ ⟨_, rfl⟩⟩

/-! ## Encoding, one check at a time -/

/-- REG.ENCODE's checks in bit order: the first value refused is the answer, and `ok` when none is (R78). -/
def checkedResponse (cfg : Config) (ok : Response) : List (RegField × Nat) → Response
  | [] => ok
  | e :: es => if regFieldOk cfg e = true then checkedResponse cfg ok es else .err (.fieldOutOfRange (.reg e.1))

theorem encodeResponse_eq_checkedResponse (cfg : Config) (all es : List (RegField × Nat)) :
    encodeResponse cfg all es = checkedResponse cfg (.ok (.word (packFields all))) es := by
  induction es with
  | nil => rfl
  | cons e es ih => rw [encodeResponse, checkedResponse, ih]

/-- The answer `ok` matters only where every check passes. -/
theorem checkedResponse_congr {cfg : Config} {ok ok' : Response} {es : List (RegField × Nat)}
    (h : (∀ e ∈ es, regFieldOk cfg e = true) → ok = ok') :
    checkedResponse cfg ok es = checkedResponse cfg ok' es := by
  induction es with
  | nil => exact h (by simp)
  | cons e es ih =>
    unfold checkedResponse
    split
    next he => exact ih fun hes => h (List.forall_mem_cons.mpr ⟨he, hes⟩)
    next => rfl

/-- A check that cannot fail may be left out. -/
theorem checkedResponse_filter {cfg : Config} {p : RegField × Nat → Bool} (ok : Response) {es : List (RegField × Nat)}
    (h : ∀ e ∈ es, p e = false → regFieldOk cfg e = true) :
    checkedResponse cfg ok es = checkedResponse cfg ok (es.filter p) := by
  induction es with
  | nil => rfl
  | cons e es ih =>
    obtain ⟨he, hes⟩ := List.forall_mem_cons.mp h
    cases hp : p e with
    | true => rw [List.filter_cons_of_pos hp, checkedResponse, checkedResponse, ih hes]
    | false => rw [List.filter_cons_of_neg (by simp [hp]), checkedResponse, if_pos (he hp), ih hes]

theorem checkedResponse_cons {cfg : Config} {f : RegField} {n : Nat} {p : Prop} [Decidable p] {ok r : Response}
    {es : List (RegField × Nat)} (h : regFieldOk cfg (f, n) = true ↔ p) (hr : checkedResponse cfg ok es = r) :
    checkedResponse cfg ok ((f, n) :: es) = if ¬p then .err (.fieldOutOfRange (.reg f)) else r := by
  simp only [checkedResponse, h, hr, ite_not]

/-! ## The values REG.ENCODE accepts -/

/-- The encode range of the field may leave out values that fit its width. The other two enumerations, the power
and initialisation states, have a member for every 2-bit value (R65). -/
def restricted : RegField → Bool
  | .intType | .microframesPerFrame | .microframeIndex | .bulkXferSize | .freqSelect | .commandCode
  | .pwrStateCmd => true
  | _ => false

/-- A value that fits an unrestricted field is no Unrecognized one. -/
theorem beyondMax_of_unrestricted (cfg : Config) {f : RegField} {n : Nat} (h : restricted f = false)
    (hn : n < 2 ^ fieldWidth f) : beyondMax cfg (regEnum f) n = false := by
  cases f with
  | pwrState | initState => exact decide_eq_false (Nat.not_le.mpr hn)
  | intType | microframesPerFrame | microframeIndex | bulkXferSize | freqSelect | commandCode | pwrStateCmd =>
    cases h
  | _ => rfl

theorem regFieldOk_iff_of_unrestricted (cfg : Config) {f : RegField} (n : Nat) (h : restricted f = false) :
    regFieldOk cfg (f, n) = true ↔ n < 2 ^ fieldWidth f := by
  rw [regFieldOk_iff, and_iff_left_iff_imp]
  intro hn
  unfold inEncodeRange
  split
  next => cases h
  next => cases h
  next => rw [beyondMax_of_unrestricted cfg h hn, Bool.not_false]

theorem regFieldOk_iff_le {cfg : Config} {f : RegField} {n m : Nat} (h : restricted f = false)
    (hm : 2 ^ fieldWidth f = m + 1) : regFieldOk cfg (f, n) = true ↔ n ≤ m := by
  rw [regFieldOk_iff_of_unrestricted cfg n h, hm, Nat.lt_succ_iff]

theorem regFieldOk_iff_le_of_enum {cfg : Config} {f : RegField} {e : Enumeration} {n m : Nat} (he : regEnum f = some e)
    (hmax : enumMax cfg e = m + 1) (hm : m < 2 ^ fieldWidth f) : regFieldOk cfg (f, n) = true ↔ n ≤ m := by
  rw [regFieldOk_iff, inEncodeRange_enum cfg n he hmax]
  omega

theorem regFieldOk_count_iff {cfg : Config} {n : Nat} :
    regFieldOk cfg (.microframesPerFrame, n) = true ↔ 1 ≤ n ∧ n ≤ 31 := by
  rw [regFieldOk_iff, inEncodeRange_count, and_iff_right_iff_imp]
  exact fun h => Nat.lt_succ_of_le h.2

theorem regFieldOk_index_iff {cfg : Config} {n : Nat} :
    regFieldOk cfg (.microframeIndex, n) = true ↔ 1 ≤ n ∧ n ≤ 31 := by
  rw [regFieldOk_iff, inEncodeRange_index, and_iff_right_iff_imp]
  exact fun h => Nat.lt_succ_of_le h.2

/-! ## The checks of a decoded view -/

/-- A value read from a word is refused only by its encode range. -/
theorem checkedResponse_readField {cfg : Config} {w : Word} {f : RegField} {q : Prop} [Decidable q] {ok r : Response}
    {fs : List RegField} (h : inEncodeRange cfg f (readField w f) = true ↔ ¬q)
    (hr : checkedResponse cfg ok (fs.map fun g => (g, readField w g)) = r) :
    checkedResponse cfg ok ((f :: fs).map fun g => (g, readField w g)) =
      if q then .err (.fieldOutOfRange (.reg f)) else r := by
  simpa using checkedResponse_cons ((Bool.eq_iff_iff.mp (regFieldOk_readField cfg w f)).trans h) hr

/-- An enumerated value read from a word is refused exactly when it is Unrecognized (R76). -/
theorem checkedResponse_readField_enum {cfg : Config} {w : Word} {f : RegField} {e : Enumeration} {m : Nat}
    {ok r : Response} {fs : List RegField} (he : regEnum f = some e) (hm : enumMax cfg e = m)
    (hr : checkedResponse cfg ok (fs.map fun g => (g, readField w g)) = r) :
    checkedResponse cfg ok ((f :: fs).map fun g => (g, readField w g)) =
      if m ≤ readField w f then .err (.fieldOutOfRange (.reg f)) else r :=
  checkedResponse_readField ((inEncodeRange_enum cfg _ he hm).trans not_le.symm) hr

theorem inEncodeRange_count_readField (cfg : Config) (w : Word) :
    inEncodeRange cfg .microframesPerFrame (readField w .microframesPerFrame) = true ↔
      ¬readField w .microframesPerFrame = 0 := by
  have hlt : readField w .microframesPerFrame < 32 := readField_lt w _
  rw [inEncodeRange_count]
  omega

theorem inEncodeRange_index_readField (cfg : Config) (w : Word) :
    inEncodeRange cfg .microframeIndex (readField w .microframeIndex) = true ↔ ¬readField w .microframeIndex = 0 := by
  have hlt : readField w .microframeIndex < 32 := readField_lt w _
  rw [inEncodeRange_index]
  omega

/-! ## The answer of REG.ENCODE -/

section
variable {k : RegKind} {V : Type} {view : (RegField → Nat) → V} {entries : V → List (RegField × Nat)}

/-- REG.ENCODE of a decoded view checks its restricted fields and answers the word with its reserved bits zeroed
(R79, laws 2 and 3). -/
theorem ViewOf.encode_decoded (L : ViewOf k view entries) {s : State} {w : Word} {r : Response}
    (hr : checkedResponse s.cfg (.ok (.word (w &&& ~~~reservedMask k)))
      (((fieldsOf k).filter restricted).map fun f => (f, readField w f)) = r) :
    finish s (encodeResult s.cfg (entries (view (readField w)))) = .next (s.respond r) := by
  have hfree : ∀ e ∈ (fieldsOf k).map fun f => (f, readField w f), restricted e.1 = false →
      regFieldOk s.cfg e = true := by
    intro e he hunrestricted
    obtain ⟨f, -, rfl⟩ := List.mem_map.mp he
    exact (regFieldOk_iff_of_unrestricted s.cfg _ hunrestricted).mpr (readField_lt w f)
  rw [finish_eq, responseTo_encodeResult, L.entries_view, encodeResponse_eq_checkedResponse, packFields_readField,
    checkedResponse_filter _ hfree, List.filter_map]
  exact congrArg (Host.Outcome.next <| s.respond ·) hr

/-- REG.ENCODE of any view: its checks, then the sum of the shifted values. -/
theorem ViewOf.encode_eq (L : ViewOf k view entries) {s : State} {v : V} {n : Nat} {r : Response}
    (hr : checkedResponse s.cfg (.ok (.word (BitVec.ofNat 32 n))) (entries v) = r)
    (hn : shiftedSum (entries v) = n) :
    finish s (encodeResult s.cfg (entries v)) = .next { s with responses := s.responses ++ [r] } := by
  rw [finish_eq, responseTo_encodeResult, encodeResponse_eq_checkedResponse, ← hr]
  refine congrArg (Host.Outcome.next <| s.respond ·) (checkedResponse_congr fun hok => ?_)
  rw [packFields_eq_sum _ (fun e he => fits_of_regFieldOk (hok e he)) (L.sorted v), hn]

/-- REG.ENCODE of a kind of one field at bit 0. -/
theorem ViewOf.encode_single (L : ViewOf k view entries) {s : State} {v : V} {f : RegField} {n : Nat} {p : Prop}
    [Decidable p] (he : entries v = [(f, n)]) (hlo : fieldLo f = 0) (h : regFieldOk s.cfg (f, n) = true ↔ p) :
    finish s (encodeResult s.cfg (entries v)) = .next { s with responses := s.responses ++
      [if ¬p then .err (.fieldOutOfRange (.reg f)) else .ok (.word (BitVec.ofNat 32 n))] } := by
  refine L.encode_eq (he ▸ checkedResponse_cons h rfl) ?_
  rw [he, shiftedSum_cons hlo, shiftedSum_nil, Nat.pow_zero, Nat.mul_one, Nat.add_zero]

end

/-- Settles O26: a decoded view is encoded by the checks of its kind's restricted fields (`ViewOf.encode_decoded`). -/
theorem encodeOfDecodedWordZeroesReservedBits : Obligations.EncodeOfDecodedWordZeroesReservedBits := by
  refine ⟨fun w v u m s h => ?status, fun w v u s h => ?frameChar, fun w v u s h => ?error, fun w v u m s h => ?id,
    fun w v u m n s h => ?dataSize, fun w v u m s h => ?caps, fun w v u s h => ?config, fun w v u s h => ?cmd,
    fun w v u s h => ?pwrCtl, fun w v u s h => ?vendorHw, fun w v u s h => ?hwRev, fun w v u s h => ?fwRev,
    fun w v u s h => ?compat, fun w v u s h => ?testCtl⟩
  all_goals cases respond_inj h
  case status => exact viewOf_status.encode_decoded (checkedResponse_readField_enum rfl rfl rfl)
  case frameChar =>
    exact viewOf_frameChar.encode_decoded
      (checkedResponse_readField (inEncodeRange_count_readField s.cfg w)
        (checkedResponse_readField (inEncodeRange_index_readField s.cfg w) rfl))
  case config =>
    exact viewOf_config.encode_decoded
      (checkedResponse_readField_enum rfl rfl (checkedResponse_readField_enum rfl rfl rfl))
  case cmd => exact viewOf_cmd.encode_decoded (checkedResponse_readField_enum rfl rfl rfl)
  case pwrCtl => exact viewOf_pwrCtl.encode_decoded (checkedResponse_readField_enum rfl rfl rfl)
  case error => exact viewOf_error.encode_decoded rfl
  case id => exact viewOf_id.encode_decoded rfl
  case dataSize => exact viewOf_dataSize.encode_decoded rfl
  case caps => exact viewOf_caps.encode_decoded rfl
  case vendorHw => exact viewOf_vendorHw.encode_decoded rfl
  case hwRev => exact viewOf_hwRev.encode_decoded rfl
  case fwRev => exact viewOf_fwRev.encode_decoded rfl
  case compat => exact viewOf_compat.encode_decoded rfl
  case testCtl => exact viewOf_testCtl.encode_decoded rfl

/-! ## REG.ENCODE, kind by kind -/

/-- Settles O16: the six checks, then the sum of the shifted values. -/
theorem regEncodeStatusResult : Obligations.RegEncodeStatusResult := by
  refine fun v s => ⟨rfl, viewOf_status.encode_eq (checkedResponse_cons (regFieldOk_iff_le rfl rfl) <|
      checkedResponse_cons (regFieldOk_iff_le_of_enum rfl rfl (by decide)) <|
      checkedResponse_cons (regFieldOk_iff_le rfl rfl) <|
      checkedResponse_cons (regFieldOk_iff_le rfl rfl) <|
      checkedResponse_cons (regFieldOk_iff_le rfl rfl) <|
      checkedResponse_cons (regFieldOk_iff_le rfl rfl) rfl) ?_⟩
  simp only [statusEntries, shiftedSum, fieldLo]
  omega

/-- Settles O17: the count and the index have ranges of their own. -/
theorem regEncodeFrameCharResult : Obligations.RegEncodeFrameCharResult := by
  refine fun v s => ⟨rfl, viewOf_frameChar.encode_eq (checkedResponse_cons (regFieldOk_iff_le rfl rfl) <|
      checkedResponse_cons regFieldOk_count_iff <|
      checkedResponse_cons regFieldOk_index_iff <|
      checkedResponse_cons (regFieldOk_iff_le rfl rfl) rfl) ?_⟩
  simp only [frameCharEntries, shiftedSum, fieldLo]
  omega

/-- Settles O24: four whole bytes. -/
theorem regEncodeCompatResult : Obligations.RegEncodeCompatResult := by
  refine fun v s => ⟨rfl, viewOf_compat.encode_eq (checkedResponse_cons (regFieldOk_iff_le rfl rfl) <|
      checkedResponse_cons (regFieldOk_iff_le rfl rfl) <|
      checkedResponse_cons (regFieldOk_iff_le rfl rfl) <|
      checkedResponse_cons (regFieldOk_iff_le rfl rfl) rfl) ?_⟩
  simp only [compatEntries, shiftedSum, fieldLo]
  omega

/-- Settles O19: each kind is one field of 32 bits. -/
theorem regEncodeWholeWordKindsResult : Obligations.RegEncodeWholeWordKindsResult :=
  ⟨fun _ _ => ⟨rfl, viewOf_id.encode_single rfl rfl (regFieldOk_iff_le rfl rfl)⟩,
    fun _ _ => ⟨rfl, viewOf_hwRev.encode_single rfl rfl (regFieldOk_iff_le rfl rfl)⟩,
    fun _ _ => ⟨rfl, viewOf_fwRev.encode_single rfl rfl (regFieldOk_iff_le rfl rfl)⟩,
    fun _ _ => ⟨rfl, viewOf_testCtl.encode_single rfl rfl (regFieldOk_iff_le rfl rfl)⟩⟩

/-- Settles O23: each kind is one enumerated field. -/
theorem regEncodeCommandKindsResult : Obligations.RegEncodeCommandKindsResult :=
  ⟨fun _ _ => ⟨rfl, viewOf_cmd.encode_single rfl rfl (regFieldOk_iff_le_of_enum rfl rfl (by decide))⟩,
    fun _ _ => ⟨rfl, viewOf_pwrCtl.encode_single rfl rfl (regFieldOk_iff_le_of_enum rfl rfl (by decide))⟩⟩

/-! ## REG.DECODE -/

/-- A field of a word as R11 writes it. -/
def slice (w : Word) (f : RegField) : Nat := w.toNat / 2 ^ fieldLo f % 2 ^ fieldWidth f

theorem readField_eq_slice (w : Word) : readField w = slice w := funext (readField_eq w)

theorem unrecognizedReg_cons_enum {cfg : Config} {f : RegField} {e : Enumeration} {n m : Nat} {u : List Field}
    {es : List (RegField × Nat)} (he : regEnum f = some e) (hm : enumMax cfg e = m)
    (hu : unrecognizedReg cfg es = u) :
    unrecognizedReg cfg ((f, n) :: es) = (if m ≤ n then [.reg f] else []) ++ u := by
  simp only [unrecognizedReg_cons, he, beyondMax_some_iff, hm, hu]

theorem unrecognizedReg_single_enum {cfg : Config} {f : RegField} {e : Enumeration} {n m : Nat}
    (he : regEnum f = some e) (hm : enumMax cfg e = m) :
    unrecognizedReg cfg [(f, n)] = if m ≤ n then [.reg f] else [] :=
  (unrecognizedReg_cons_enum he hm rfl).trans (List.append_nil _)

section
variable {k : RegKind} {V : Type} {view : (RegField → Nat) → V} {entries : V → List (RegField × Nat)}

/-- Only restricted fields of a decoded view can be Unrecognized. -/
theorem ViewOf.unrecognizedReg_decoded (L : ViewOf k view entries) (cfg : Config) (w : Word) :
    unrecognizedReg cfg (entries (view (readField w))) =
      unrecognizedReg cfg (((fieldsOf k).filter restricted).map fun f => (f, readField w f)) := by
  rw [L.entries_view]
  unfold unrecognizedReg
  rw [List.filter_map, List.filter_map, List.filter_filter]
  congr 2
  refine List.filter_congr fun f _ => ?_
  cases h : restricted f with
  | true => exact (Bool.and_true _).symm
  | false => exact (beyondMax_of_unrestricted cfg h (readField_lt w f)).trans (Bool.and_false _).symm

/-- REG.DECODE of any word: the view of the bit slices and the Unrecognized fields among the restricted ones. `result`
is the kind's result, with the conditions or byte counts of its own (R77). -/
theorem ViewOf.decode_eq (L : ViewOf k view entries) (result : V → List Field → Result) {s : State} {w : Word}
    {u : List Field}
    (hu : unrecognizedReg s.cfg (((fieldsOf k).filter restricted).map fun f => (f, slice w f)) = u) :
    answer s (result (view (readField w)) (unrecognizedReg s.cfg (entries (view (readField w))))) =
      .next { s with responses := s.responses ++ [.ok (result (view (slice w)) u)] } := by
  rw [L.unrecognizedReg_decoded, readField_eq_slice, hu]
  rfl

end

/-- Settles O10: of the three enumerations of a Status word, only `int_type` can be Unrecognized. -/
theorem regDecodeStatusResult : Obligations.RegDecodeStatusResult := by
  refine fun w s => ⟨rfl, statusOf (slice w), _, ?_, fun _ => ⟨rfl, rfl⟩⟩
  rw [← syncMismatch_eq]
  exact viewOf_status.decode_eq (.status · · (syncMismatch w)) (unrecognizedReg_single_enum rfl rfl)

/-- Settles O11: neither kind has an enumerated field. -/
theorem regDecodeFrameCharAndErrorResult : Obligations.RegDecodeFrameCharAndErrorResult :=
  ⟨fun _ _ => ⟨rfl, viewOf_frameChar.decode_eq .frameChar rfl⟩, fun _ _ => ⟨rfl, viewOf_error.decode_eq .error rfl⟩⟩

/-- Settles O13: the one field is the whole word. -/
theorem regDecodeIdResult : Obligations.RegDecodeIdResult := by
  refine fun w s => ⟨rfl, ?_⟩
  have hw : slice w .idValue = w.toNat := readField_eq_slice w ▸ readField_whole w _ rfl rfl
  rw [← idMismatch_eq, ← hw]
  exact viewOf_id.decode_eq (.id · · (idMismatch w)) rfl

/-- Settles O14: the restricted fields of these kinds are their enumerated ones. -/
theorem regDecodeEnumeratedKindsResult : Obligations.RegDecodeEnumeratedKindsResult :=
  ⟨fun _ _ => ⟨rfl, viewOf_config.decode_eq .config
      (unrecognizedReg_cons_enum rfl rfl (unrecognizedReg_single_enum rfl rfl))⟩,
    fun _ _ => ⟨rfl, viewOf_cmd.decode_eq .cmd (unrecognizedReg_single_enum rfl rfl)⟩,
    fun _ _ => ⟨rfl, viewOf_pwrCtl.decode_eq .pwrCtl (unrecognizedReg_single_enum rfl rfl)⟩⟩

/-- Settles O15: no field of these kinds is enumerated. -/
theorem regDecodeRevisionKindsResult : Obligations.RegDecodeRevisionKindsResult :=
  ⟨fun _ _ => ⟨rfl, viewOf_vendorHw.decode_eq .vendorHw rfl⟩,
    fun _ _ => ⟨rfl, viewOf_hwRev.decode_eq .hwRev rfl⟩,
    fun _ _ => ⟨rfl, viewOf_fwRev.decode_eq .fwRev rfl⟩,
    fun _ _ => ⟨rfl, viewOf_compat.decode_eq .compat rfl⟩,
    fun _ _ => ⟨rfl, viewOf_testCtl.decode_eq .testCtl rfl⟩⟩

end Sys2Proof.Machine

/-! PROOFS of 41_frame_reassembler.md: what FRAME.PUSH and FRAME.RESET answer and leave, the frame that a run of
micro-frames makes, and where delivered bytes come from. -/

namespace Sys2Proof.Machine

/-! ## One FRAME request and the state it leaves -/

theorem exec_framePush_of_some {s : State} {d : Nat} {R R' : Reassembler} {fc : Word} {data : Bytes} {resp : Response}
    (hR : s.instances[d]? = some R) (hpush : pushFrame R fc data = (R', resp)) :
    exec (.framePush d fc data) s =
      .next { s with instances := s.instances.set d R', responses := s.responses ++ [resp] } := by
  have h := execFramePush_of_some hR fc data
  rw [hpush] at h
  exact h

/-- The checks every micro-frame meets (R112, R113), then the two ways a phase takes it (R114, R115). -/
theorem pushFrame_eq (R : Reassembler) (fc : Word) (data : Bytes) :
    pushFrame R fc data =
      if R.phase = .faulted ∧ (decodeFrameChar fc).microframeIndex ≠ 1 then (R, .ok .dropped)
      else if (decodeFrameChar fc).microframesPerFrame = 0 ∨ (decodeFrameChar fc).microframeIndex = 0 ∨
          (decodeFrameChar fc).microframesPerFrame < (decodeFrameChar fc).microframeIndex then
        faultWith .invalidCharacteristics
      else if data.length ≠ (decodeFrameChar fc).microframeSize then faultWith .dataLengthMismatch
      else if R.phase ≠ .collecting then openFrame (decodeFrameChar fc) data
      else appendFrame R (decodeFrameChar fc) data := by
  unfold pushFrame
  cases R.phase <;> rfl

/-- Settles O28: `execFrameReset` by whether the instance exists. -/
theorem frameResetResult : Obligations.FrameResetResult := by
  refine fun d s => ⟨rfl, fun hd => ?_, fun hd => ?_⟩
  · exact execFrameReset_of_some (List.getElem?_eq_getElem hd)
  · exact execFrameReset_of_none (List.getElem?_eq_none hd)

/-- Settles O27: `pushFrame_eq` with the opening and the comparisons written out, over the slices of the snapshot. -/
theorem framePushResult : Obligations.FramePushResult := by
  refine fun d fc data s => ⟨rfl, fun hd => ?_, ?_⟩
  · exact execFramePush_of_none (List.getElem?_eq_none hd) fc data
  · intro R hR size n i hid fault done out
    have hout : pushFrame R fc data = out := by
      rw [pushFrame_eq]
      unfold openFrame appendFrame
      rw [frameChar_size, frameChar_count, frameChar_index, frameChar_hid]
      rfl
    exact exec_framePush_of_some hR hout

/-! ## Micro-frames in order (R114 to R116) -/

/-- A micro-frame of index 1 opens a frame in every instance that is not collecting, a Faulted one too (R114, R118). -/
theorem pushFrame_eq_openFrame {R : Reassembler} {fc : Word} {data : Bytes} {v : FrameCharView}
    (hv : decodeFrameChar fc = v) (hphase : R.phase ≠ .collecting) (hindex : v.microframeIndex = 1)
    (hcount : 1 ≤ v.microframesPerFrame) (hdata : data.length = v.microframeSize) :
    pushFrame R fc data = openFrame v data := by
  subst hv
  rw [pushFrame_eq, if_neg fun h => h.2 hindex, if_neg (by omega), if_neg (not_not.mpr hdata), if_pos hphase]

/-- A micro-frame consistent in itself is compared with the frame being collected (R115). -/
theorem pushFrame_eq_appendFrame {R : Reassembler} {fc : Word} {data : Bytes} {v : FrameCharView}
    (hv : decodeFrameChar fc = v) (hphase : R.phase = .collecting) (hpos : 1 ≤ v.microframeIndex)
    (hcount : v.microframeIndex ≤ v.microframesPerFrame) (hdata : data.length = v.microframeSize) :
    pushFrame R fc data = appendFrame R v data := by
  subst hv
  rw [pushFrame_eq, if_neg (by simp [hphase]), if_neg (by omega), if_neg (not_not.mpr hdata),
    if_neg (not_not.mpr hphase)]

/-- `R` awaits micro-frame `k + 1` of a frame of `n` micro-frames of `size` bytes with flag `hid`, the `k` before
it making up `buf`: any instance that is not collecting awaits the first of every frame. -/
inductive Awaits (size n hid : Nat) : Nat → Bytes → Reassembler → Prop
  | first {R : Reassembler} (h : R.phase ≠ .collecting) : Awaits size n hid 0 [] R
  | next (k : Nat) (buf : Bytes) : Awaits size n hid k buf ⟨.collecting, buf, n, k, size, hid⟩

theorem awaits_first {R : Reassembler} (h : R.phase = .idle ∨ R.phase = .faulted) (size n hid : Nat) :
    Awaits size n hid 0 [] R :=
  .first (by rcases h with h | h <;> rw [h] <;> exact nofun)

/-- What the awaited micro-frame makes of the frame: a delivery when it is the last, one micro-frame more if not. -/
def takeMicroframe (size n hid k : Nat) (buf data : Bytes) : Reassembler × Response :=
  if k + 1 = n then (Reassembler.reset, .ok (.complete (buf ++ data) hid))
  else (⟨.collecting, buf ++ data, n, k + 1, size, hid⟩, .ok .collecting)

theorem takeMicroframe_last (size hid k : Nat) (buf data : Bytes) :
    takeMicroframe size (k + 1) hid k buf data = (Reassembler.reset, .ok (.complete (buf ++ data) hid)) :=
  if_pos rfl

theorem takeMicroframe_of_ne {n k : Nat} (h : k + 1 ≠ n) (size hid : Nat) (buf data : Bytes) :
    takeMicroframe size n hid k buf data = (⟨.collecting, buf ++ data, n, k + 1, size, hid⟩, .ok .collecting) :=
  if_neg h

theorem openFrame_first {size : Nat} (h : size ≤ 32768) (n hid : Nat) (data : Bytes) :
    openFrame ⟨size, n, 1, hid⟩ data = takeMicroframe size n hid 0 [] data := by
  unfold openFrame takeMicroframe maxFrameBytes
  rw [if_neg (not_not.mpr rfl), if_neg (Nat.not_lt.mpr h)]
  exact if_congr eq_comm rfl rfl

theorem appendFrame_next {size : Nat} {buf : Bytes} (h : buf.length + size ≤ 32768) (n hid k : Nat) (data : Bytes) :
    appendFrame ⟨.collecting, buf, n, k, size, hid⟩ ⟨size, n, k + 1, hid⟩ data =
      takeMicroframe size n hid k buf data := by
  unfold appendFrame takeMicroframe maxFrameBytes
  simp only [ne_eq, not_true_eq_false, if_false, if_neg (Nat.not_lt.mpr h)]

/-- The awaited micro-frame is taken, from every phase that can await it. -/
theorem pushFrame_of_awaits {size n hid k : Nat} {buf data : Bytes} {R : Reassembler} (hR : Awaits size n hid k buf R)
    (hk : k < n) (hn : n ≤ 31) (hhid : hid ≤ 1) (hdata : data.length = size) (hmax : buf.length + size ≤ 32768) :
    pushFrame R (fcWord size n (k + 1) hid) data = takeMicroframe size n hid k buf data := by
  have hv : decodeFrameChar (fcWord size n (k + 1) hid) = ⟨size, n, k + 1, hid⟩ :=
    decodeFrameChar_fcWord (by omega) (by omega) (by omega) hhid
  cases hR with
  | first h =>
    rw [pushFrame_eq_openFrame hv h rfl hk hdata]
    exact openFrame_first (by simpa using hmax) n hid data
  | next =>
    rw [pushFrame_eq_appendFrame hv rfl (Nat.le_add_left 1 k) hk hdata]
    exact appendFrame_next hmax n hid k data

/-! ## A whole frame -/

/-- The requests that push `cs` to instance `d` as the micro-frames `k + 1`, `k + 2`, … of a frame of `n`. -/
def microframeRequests (d size n hid k : Nat) (cs : List Bytes) : List Request :=
  cs.mapIdx fun j c => encode (.framePush d (fcWord size n (j + k + 1) hid) c)

theorem microframeRequests_cons (d size n hid k : Nat) (c : Bytes) (cs : List Bytes) :
    microframeRequests d size n hid k (c :: cs) =
      encode (.framePush d (fcWord size n (k + 1) hid) c) :: microframeRequests d size n hid (k + 1) cs := by
  simp only [microframeRequests, List.mapIdx_cons, Nat.zero_add, Nat.add_assoc, Nat.add_comm 1]

theorem step_of_encode {s : State} {i : Instr} {rest : List Request} (hp : s.pending = encode i :: rest) :
    step s = exec i { s with pending := rest } :=
  step_of_decode_ok hp (decodeOfEncodeIsTheInstruction i)

/-- The block answers the awaited micro-frame's request and goes on to the ones after it. -/
theorem step_of_awaits {d size n hid k : Nat} {buf c : Bytes} {cs : List Bytes} {rest : List Request}
    {R R' : Reassembler} {resp : Response} {s : State} (hd : s.instances[d]? = some R)
    (hR : Awaits size n hid k buf R) (hk : k < n) (hn : n ≤ 31) (hhid : hid ≤ 1) (hc : c.length = size)
    (hmax : buf.length + size ≤ 32768) (hp : s.pending = microframeRequests d size n hid k (c :: cs) ++ rest)
    (htake : takeMicroframe size n hid k buf c = (R', resp)) :
    step s = .next
      { s with
        pending := microframeRequests d size n hid (k + 1) cs ++ rest,
        instances := s.instances.set d R',
        responses := s.responses ++ [resp] } := by
  rw [microframeRequests_cons, List.cons_append] at hp
  rw [step_of_encode hp]
  exact exec_framePush_of_some hd ((pushFrame_of_awaits hR hk hn hhid hc hmax).trans htake)

/-- The rest of a frame, from the micro-frame its instance awaits: every push but the last is Collecting, and the
last delivers what was buffered followed by everything pushed (R116, R120). -/
theorem run_microframeRequests {d size n hid : Nat} (hn : n ≤ 31) (hhid : hid ≤ 1) {rest : List Request}
    {c : Bytes} {cs : List Bytes} {k : Nat} {buf : Bytes} {R : Reassembler} {s : State}
    (hd : s.instances[d]? = some R) (hR : Awaits size n hid k buf R) (hk : k + 1 + cs.length = n)
    (hsize : ∀ x ∈ c :: cs, x.length = size) (hmax : buf.length + (cs.length + 1) * size ≤ 32768)
    (hp : s.pending = microframeRequests d size n hid k (c :: cs) ++ rest) :
    core.run (cs.length + 1) s = .next
      { s with
        pending := rest,
        instances := s.instances.set d Reassembler.reset,
        responses := s.responses ++ List.replicate cs.length (.ok .collecting) ++
          [.ok (.complete (buf ++ (c :: cs).flatten) hid)] } := by
  induction cs generalizing c k buf R s with
  | nil =>
    obtain rfl : k + 1 = n := hk
    obtain hc : c.length = size := hsize c List.mem_cons_self
    rw [run_succ (step_of_awaits hd hR (Nat.lt_succ_self k) hn hhid hc (by simpa using hmax) hp
      (takeMicroframe_last size hid k buf c))]
    simp [run_zero, microframeRequests]
  | cons c' cs ih =>
    obtain ⟨hc, hsize'⟩ := List.forall_mem_cons.mp hsize
    rw [List.length_cons, Nat.succ_mul] at hmax
    rw [List.length_cons] at hk
    have hstep := step_of_awaits hd hR (by omega) hn hhid hc (by omega) hp
      (takeMicroframe_of_ne (by omega) size hid buf c)
    have hd' : d < s.instances.length := (List.getElem?_eq_some_iff.mp hd).1
    rw [List.length_cons, run_succ hstep,
      ih (List.getElem?_set_self hd') (.next (k + 1) (buf ++ c)) (by omega) hsize'
        (by rw [List.length_append]; omega) rfl]
    simp [List.replicate_succ]

/-- Settles O34: at its first micro-frame the instance awaits the whole frame. -/
theorem orderedMicroFramesYieldOneFrame : Obligations.OrderedMicroFramesYieldOneFrame := by
  intro s d R size hid chunks rest hd hphase hpos hn hsize hmax hhid hp
  cases chunks with
  | nil => cases hpos
  | cons c cs =>
    have hlen : (c :: cs).flatten.length = (c :: cs).length * size := by
      rw [List.length_flatten, List.map_congr_left hsize, List.map_const', List.sum_replicate, smul_eq_mul]
    exact ⟨run_microframeRequests hn hhid hd (awaits_first hphase size _ hid) (by simp [Nat.add_comm]) hsize
      (by simpa using hmax) hp, hlen⟩

/-! ## Frames that are not whole -/

/-- Settles O35: the instance awaits index 2, so index 3 passes the count's comparison and fails the index's. -/
theorem skippedIndexFaultsTheFrame : Obligations.SkippedIndexFaultsTheFrame := by
  intro s d R n size size' hid hid' c c' hd hphase hn hn' hhid hhid' hc hmax hc' hsize'
  have hfirst : pushFrame R (fcWord size n 1 hid) c = (⟨.collecting, c, n, 1, size, hid⟩, .ok .collecting) :=
    (pushFrame_of_awaits (awaits_first hphase size n hid) (by omega) hn' hhid hc (by simpa using hmax)).trans
      (takeMicroframe_of_ne (by omega) size hid [] c)
  have hthird : pushFrame ⟨.collecting, c, n, 1, size, hid⟩ (fcWord size' n 3 hid') c' = faultWith .outOfOrder := by
    have hv := decodeFrameChar_fcWord hsize' (Nat.lt_succ_of_le hn') (by decide : 3 < 2 ^ 5) hhid'
    rw [pushFrame_eq_appendFrame hv rfl (Nat.le_add_left 1 2) hn hc']
    simp [appendFrame]
  have hd' : d < s.instances.length := (List.getElem?_eq_some_iff.mp hd).1
  refine ⟨_, exec_framePush_of_some hd hfirst, ?_⟩
  rw [exec_framePush_of_some (List.getElem?_set_self hd') hthird]
  simp [Reassembler.reset]

/-- Settles O36: the only micro-frame of a frame is its last; a frame being collected has more than one (R22). -/
theorem singleMicroFrameCompletesUnlessCollecting : Obligations.SingleMicroFrameCompletesUnlessCollecting := by
  intro s d R size hid c hd hc hmax hhid
  refine ⟨fun hphase => exec_framePush_of_some hd ?_, fun hphase hinv => exec_framePush_of_some hd ?_⟩
  · exact (pushFrame_of_awaits (awaits_first hphase size 1 hid) Nat.one_pos (by omega) hhid hc
      (by simpa using hmax)).trans (takeMicroframe_last size hid 0 [] c)
  · obtain ⟨hlast, hmore, -⟩ := (inv_iff_of_collecting hphase).mp hinv
    have hcount : 1 ≠ R.mfpf := by omega
    have hv := decodeFrameChar_fcWord (by omega : size < 2 ^ 18) (by decide : 1 < 2 ^ 5) (by decide : 1 < 2 ^ 5) hhid
    rw [pushFrame_eq_appendFrame hv hphase le_rfl le_rfl hc]
    exact if_pos hcount

/-! ## Where delivered bytes come from (R111) -/

theorem eq_of_answer {s t : State} {r q : Result} (h : answer s r = .next t)
    (ht : t.responses = s.responses ++ [.ok q]) : r = q := by
  cases h
  simpa using ht

theorem eq_ok_of_finish {s t : State} {x : Except Err Result} {q : Result} (h : finish s x = .next t)
    (ht : t.responses = s.responses ++ [.ok q]) : x = .ok q := by
  rw [finish_eq] at h
  cases h
  cases x with
  | ok r => simpa using ht
  | error e => simp at ht

theorem encodeResult_ne_complete (cfg : Config) (es : List (RegField × Nat)) (bs : Bytes) (hid : Nat) :
    encodeResult cfg es ≠ .ok (.complete bs hid) := by
  unfold encodeResult
  cases encodeFields cfg es <;> exact nofun

theorem builtResult_ne_complete (x : Except Err Bytes) (bs : Bytes) (hid : Nat) :
    builtResult x ≠ .ok (.complete bs hid) := by
  cases x <;> exact nofun

theorem rawParseResult_ne_complete (cfg : Config) (B bs : Bytes) (hid : Nat) :
    rawParseResult cfg B ≠ .ok (.complete bs hid) := by
  unfold rawParseResult
  cases parseCommon cfg B rawHdrBytes with
  | error e => exact nofun
  | ok payload => dsimp only; split <;> exact nofun

theorem fbParseResult_ne_complete (cfg : Config) (B bs : Bytes) (hid : Nat) :
    fbParseResult cfg B ≠ .ok (.complete bs hid) := by
  unfold fbParseResult
  cases parseCommon cfg B fbHdrBytes with
  | error e => exact nofun
  | ok payload => dsimp only; split <;> exact nofun

theorem wrParseResult_ne_complete (cfg : Config) (B bs : Bytes) (hid : Nat) :
    wrParseResult cfg B ≠ .ok (.complete bs hid) := by
  unfold wrParseResult
  cases parseCommon cfg B wrHdrBytes <;> exact nofun

theorem errpParseResult_ne_complete (cfg : Config) (B bs : Bytes) (hid : Nat) :
    errpParseResult cfg B ≠ .ok (.complete bs hid) := by
  unfold errpParseResult
  split
  · exact nofun
  · split <;> exact nofun

/-- No other instruction delivers a frame: every other result has a shape of its own (R110). -/
theorem exists_framePush_of_complete {i : Instr} {s t : State} {bs : Bytes} {hid : Nat} (h : exec i s = .next t)
    (ht : t.responses = s.responses ++ [.ok (.complete bs hid)]) : ∃ d fc data, i = .framePush d fc data := by
  cases i with
  | framePush d fc data => exact ⟨d, fc, data, rfl⟩
  | frameReset d =>
    cases (exec_frameReset d s).symm.trans h
    cases hd : s.instances[d]? <;> simp [State.atInstance, hd] at ht
  | regDecodeStatus | regDecodeFrameChar | regDecodeError | regDecodeId | regDecodeDataSize | regDecodeCaps
  | regDecodeConfig | regDecodeCmd | regDecodePwrCtl | regDecodeVendorHw | regDecodeHwRev | regDecodeFwRev
  | regDecodeCompat | regDecodeTestCtl | stateClassify | statePwrval | stateCmdval =>
    cases eq_of_answer h ht
  | regEncodeStatus | regEncodeFrameChar | regEncodeError | regEncodeId | regEncodeDataSize | regEncodeCaps
  | regEncodeConfig | regEncodeCmd | regEncodePwrCtl | regEncodeVendorHw | regEncodeHwRev | regEncodeFwRev
  | regEncodeCompat | regEncodeTestCtl =>
    exact absurd (eq_ok_of_finish h ht) (encodeResult_ne_complete _ _ bs hid)
  | rawBuild | fbBuild | wrBuild | errpBuild =>
    exact absurd (eq_ok_of_finish h ht) (builtResult_ne_complete _ bs hid)
  | rawParse => exact absurd (eq_ok_of_finish h ht) (rawParseResult_ne_complete _ _ bs hid)
  | fbParse => exact absurd (eq_ok_of_finish h ht) (fbParseResult_ne_complete _ _ bs hid)
  | wrParse => exact absurd (eq_ok_of_finish h ht) (wrParseResult_ne_complete _ _ bs hid)
  | errpParse => exact absurd (eq_ok_of_finish h ht) (errpParseResult_ne_complete _ _ bs hid)

/-- A micro-frame that delivers belongs to an instance that exists (R23). -/
theorem exists_pushFrame_of_complete {d : Nat} {fc : Word} {data : Bytes} {s t : State} {bs : Bytes} {hid : Nat}
    (h : exec (.framePush d fc data) s = .next t) (ht : t.responses = s.responses ++ [.ok (.complete bs hid)]) :
    ∃ R, s.instances[d]? = some R ∧ (pushFrame R fc data).2 = .ok (.complete bs hid) := by
  cases (exec_framePush d fc data s).symm.trans h
  cases hd : s.instances[d]? with
  | none => simp [State.atInstance, hd] at ht
  | some R => exact ⟨R, rfl, by simpa [State.atInstance, hd] using ht⟩

theorem openFrame_complete {v : FrameCharView} {data bs : Bytes} {hid : Nat}
    (h : (openFrame v data).2 = .ok (.complete bs hid)) :
    v.microframeIndex = 1 ∧ v.microframesPerFrame = 1 ∧ v.microframeSize ≤ 32768 ∧ bs = data ∧ hid = v.hidReport := by
  obtain ⟨r, hr⟩ | ⟨hindex, hmax, hcount, hr⟩ | ⟨-, -, -, hr⟩ := openFrame_cases v data
  · rw [hr] at h; cases h
  · rw [hr] at h; cases h
    exact ⟨hindex, hcount, hmax, rfl, rfl⟩
  · rw [hr] at h; cases h

theorem appendFrame_complete {R : Reassembler} {v : FrameCharView} {data bs : Bytes} {hid : Nat}
    (h : (appendFrame R v data).2 = .ok (.complete bs hid)) :
    v.microframesPerFrame = R.mfpf ∧ v.microframeIndex = R.last + 1 ∧ v.microframeSize = R.mfs ∧
      v.hidReport = R.hid ∧ R.buf.length + v.microframeSize ≤ 32768 ∧ v.microframeIndex = R.mfpf ∧
      bs = R.buf ++ data ∧ hid = R.hid := by
  obtain ⟨r, hr⟩ | ⟨⟨hcount, hnext, hsize, hhid, hmax⟩, ⟨hlast, hr⟩ | ⟨-, hr⟩⟩ := appendFrame_cases R v data
  · rw [hr] at h; cases h
  · rw [hr] at h; cases h
    exact ⟨hcount, hnext, hsize, hhid, hmax, hlast, rfl, rfl⟩
  · rw [hr] at h; cases h

/-- Settles O37: only FRAME.PUSH delivers, and of the ways it goes (`pushFrame_cases`) only opening a frame of one
micro-frame and appending the last one do. -/
theorem onlyWholeFramesAreDelivered : Obligations.OnlyWholeFramesAreDelivered := by
  intro i s t bs hid h ht
  obtain ⟨d, fc, data, rfl⟩ := exists_framePush_of_complete h ht
  obtain ⟨R, hd, hpush⟩ := exists_pushFrame_of_complete h ht
  refine ⟨d, fc, data, R, rfl, hd, ?_⟩
  rw [← frameChar_size, ← frameChar_count, ← frameChar_index, ← frameChar_hid]
  obtain ⟨-, -, hr⟩ | ⟨r, hr⟩ | ⟨⟨-, -, hdata⟩, ⟨hphase, hr⟩ | ⟨hphase, hr⟩⟩ := pushFrame_cases R fc data
  · rw [hr] at hpush; cases hpush
  · rw [hr] at hpush; cases hpush
  · rw [hr] at hpush
    obtain ⟨hindex, hcount, hmax, rfl, rfl⟩ := openFrame_complete hpush
    exact ⟨hdata, rfl, hindex.trans hcount.symm, hdata.trans_le hmax, .inl ⟨hphase, hindex, rfl⟩⟩
  · rw [hr] at hpush
    obtain ⟨hcount, hnext, hsize, hhid, hmax, hlast, rfl, rfl⟩ := appendFrame_complete hpush
    have hlen : (R.buf ++ data).length ≤ 32768 := by rwa [List.length_append, hdata]
    exact ⟨hdata, hhid.symm, hlast.trans hcount.symm, hlen,
      .inr ⟨hphase, hnext, hcount, hdata.trans hsize, rfl, rfl⟩⟩

end Sys2Proof.Machine

/-! PROOFS of 42_envelopes.md: what each parse and build of an envelope answers, and the round trips between them. -/

namespace Sys2Proof.Machine

/-! ## Answers of the envelope codec -/

theorem next_respond_inj_iff {s : State} {a b : Response} :
    (Host.Outcome.next (s.respond a) : Host.Outcome State Fault Refusal) = .next (s.respond b) ↔ a = b :=
  ⟨respond_inj, fun h => h ▸ rfl⟩

theorem finish_eq_ok_iff {s : State} {x : Except Err Result} {q : Result} :
    finish s x = .next (s.respond (.ok q)) ↔ x = .ok q := by
  rw [finish_eq, next_respond_inj_iff]
  cases x <;> simp

theorem bind_eq_ok_iff {α β : Type} {x : Except Err α} {k : α → Except Err β} {b : β} :
    x.bind k = .ok b ↔ ∃ a, x = .ok a ∧ k a = .ok b := by
  cases x <;> simp [Except.bind]

theorem ite_error_eq_ok_iff {α : Type} {p : Prop} [Decidable p] {e : Err} {x : Except Err α} {a : α} :
    (if p then .error e else x) = .ok a ↔ ¬p ∧ x = .ok a := by
  split <;> simp [*]

/-- An error clause of a response is passed exactly when its condition is false. -/
theorem ite_err_eq_ok_iff {p : Prop} [Decidable p] {e : Err} {r : Response} {q : Result} :
    (if p then .err e else r) = .ok q ↔ ¬p ∧ r = .ok q := by
  split <;> simp [*]

/-! ## Slices of a byte string -/

theorem length_sub {B : Bytes} {a b : Nat} (h : b ≤ B.length) : (sub B a b).length = b - a := by
  rw [sub, List.length_take, List.length_drop]
  omega

theorem sub_append_sub (B : Bytes) {a b c : Nat} (hab : a ≤ b) (hbc : b ≤ c) : sub B a b ++ sub B b c = sub B a c := by
  have hb : B.drop b = (B.drop a).drop (b - a) := by rw [List.drop_drop, Nat.add_sub_cancel' hab]
  rw [sub, sub, sub, hb, ← List.take_add]
  congr 1
  omega

theorem sub_eq_zeros {B : Bytes} {a b : Nat} (h : b ≤ B.length) (hz : ∀ x ∈ sub B a b, x = 0) :
    sub B a b = zeros (b - a) := List.eq_replicate_iff.mpr ⟨length_sub h, hz⟩

/-! ## Header fields -/

theorem readHdr_lt (cfg : Config) (B : Bytes) (f : HdrField) : readHdr cfg B f < 2 ^ (8 * hdrSize cfg f) := by
  have hlen : (sub B (hdrOffset f) (hdrOffset f + hdrSize cfg f)).length ≤ hdrSize cfg f := by
    rw [sub_from]; exact List.length_take_le ..
  rw [Nat.pow_mul]
  exact (leValue_lt _).trans_le (Nat.pow_le_pow_right (by decide) hlen)

/-- A value read from a header is refused only as an Unrecognized one (R76, R122). -/
theorem hdrFieldOk_readHdr {cfg : Config} {B : Bytes} {f : HdrField}
    (h : beyondMax cfg (hdrEnum f) (readHdr cfg B f) = false) : hdrFieldOk cfg (f, readHdr cfg B f) = true := by
  simp [hdrFieldOk, readHdr_lt, h]

/-- A header that holds an accepted value at the field's place reads that value. -/
theorem readHdr_eq {cfg : Config} {B : Bytes} {f : HdrField} {v : Nat} (hok : hdrFieldOk cfg (f, v) = true)
    (h : sub B (hdrOffset f) (hdrOffset f + hdrSize cfg f) = leBytes (hdrSize cfg f) v) : readHdr cfg B f = v := by
  have hv : v < 2 ^ (8 * hdrSize cfg f) := of_decide_eq_true (Bool.and_eq_true_iff.mp hok).1
  rw [Nat.pow_mul] at hv
  rw [readHdr, memRead, h, leValue_leBytes]
  exact Nat.mod_eq_of_lt hv

/-- The bytes of a value read from a header are the bytes it was read from. -/
theorem leBytes_readHdr {cfg : Config} {B : Bytes} {f : HdrField} (h : hdrOffset f + hdrSize cfg f ≤ B.length) :
    leBytes (hdrSize cfg f) (readHdr cfg B f) = sub B (hdrOffset f) (hdrOffset f + hdrSize cfg f) := by
  have hlen := length_sub (a := hdrOffset f) h
  rw [Nat.add_sub_cancel_left] at hlen
  have hb := leBytes_leValue (sub B (hdrOffset f) (hdrOffset f + hdrSize cfg f))
  rwa [hlen] at hb

/-- Nothing is Unrecognized exactly when no value is at or beyond its MAX (R76). -/
theorem unrecognizedHdr_eq_nil_iff {cfg : Config} {es : List (HdrField × Nat)} :
    unrecognizedHdr cfg es = [] ↔ ∀ e ∈ es, beyondMax cfg (hdrEnum e.1) e.2 = false := by
  simp [unrecognizedHdr, List.filter_eq_nil_iff]

/-- No value that a build accepts is Unrecognized. -/
theorem unrecognizedHdr_of_hdrFieldOk {cfg : Config} {es es' : List (HdrField × Nat)}
    (hok : ∀ e ∈ es, hdrFieldOk cfg e = true) (hsub : es' ⊆ es) : unrecognizedHdr cfg es' = [] :=
  unrecognizedHdr_eq_nil_iff.mpr fun e he => by simpa using (Bool.and_eq_true_iff.mp (hok e (hsub he))).2

theorem unrecognizedHdr_cons_enum {cfg : Config} {f : HdrField} {e : Enumeration} {n m : Nat} {u : List Field}
    {es : List (HdrField × Nat)} (he : hdrEnum f = some e) (hm : enumMax cfg e = m)
    (hu : unrecognizedHdr cfg es = u) :
    unrecognizedHdr cfg ((f, n) :: es) = (if m ≤ n then [.hdr f] else []) ++ u := by
  simp only [unrecognizedHdr_cons, he, beyondMax_some_iff, hm, hu]

theorem unrecognizedHdr_single_enum {cfg : Config} {f : HdrField} {e : Enumeration} {n m : Nat}
    (he : hdrEnum f = some e) (hm : enumMax cfg e = m) :
    unrecognizedHdr cfg [(f, n)] = if m ≤ n then [.hdr f] else [] :=
  (unrecognizedHdr_cons_enum he hm rfl).trans (List.append_nil _)

theorem compatIdSize_eq_ite (cfg : Config) : compatIdSize cfg = if cfg.compatIdBytes = .four then 4 else 1 := by
  unfold compatIdSize
  cases cfg.compatIdBytes <;> rfl

theorem hdrFieldOk_compatId {cfg : Config} (v : Nat) :
    hdrFieldOk cfg (.compatId, v) = true ↔ v < if cfg.compatIdBytes = .four then 2 ^ 32 else 256 := by
  simp only [hdrFieldOk, hdrSize, hdrEnum, beyondMax_none, compatIdSize_eq_ite]
  split <;> simp

/-! ## The structure of a parse (R121) -/

/-- An envelope's parse answers a structural error, or what it makes of the declared payload. -/
theorem responseTo_bind_parseCommon {cfg : Config} {B : Bytes} {H : Nat} {k : Bytes → Except Err Result} {r : Response}
    (hk : responseTo (k ((B.drop H).take (le32 B 4))) = r) :
    responseTo ((parseCommon cfg B H).bind k) =
      if B.length < H then .err (.truncatedHeader B.length H)
      else if B.length - H < le32 B 4 then .err (.truncatedPayload (B.length - H) (le32 B 4))
      else if le32 B 4 < B.length - H ∧ cfg.allowTrailingBytes = false then
        .err (.lengthMismatch (B.length - H) (le32 B 4))
      else r := by
  rw [parseCommon_eq, ← hk]
  split_ifs <;> rfl

/-- A header whose length field counts the bytes that follow it parses to those bytes. -/
theorem parseCommon_append {cfg : Config} {A P : Bytes} {H : Nat} (hA : A.length = H)
    (hn : le32 (A ++ P) 4 = P.length) : parseCommon cfg (A ++ P) H = .ok P := by
  subst hA
  have hlen : (A ++ P).length - A.length = P.length := by simp
  rw [parseCommon_eq, hn, hlen, if_neg (by simp), if_neg (Nat.lt_irrefl _), if_neg (fun h => Nat.lt_irrefl _ h.1),
    List.drop_left, List.take_length]

/-- Without trailing bytes, an input that parses is its header and its payload. -/
theorem eq_append_of_parseCommon {cfg : Config} {B P : Bytes} {H : Nat} (ht : cfg.allowTrailingBytes = false)
    (h : parseCommon cfg B H = .ok P) : H ≤ B.length ∧ P.length = le32 B 4 ∧ sub B 0 H ++ P = B := by
  obtain ⟨hH, -, hexact, hP, hlen⟩ := parseCommon_ok h
  refine ⟨hH, hlen, ?_⟩
  rw [hP, hexact ht, ← List.length_drop, List.take_length]
  exact List.take_append_drop H B

/-! ## The checks of a build (R122) -/

/-- A build's field checks in byte order: the first value refused is the answer, and `ok` when none is. -/
def headerResponse (cfg : Config) (ok : Response) : List (HdrField × Nat) → Response
  | [] => ok
  | e :: es => if hdrFieldOk cfg e = true then headerResponse cfg ok es else .err (.fieldOutOfRange (.hdr e.1))

theorem responseTo_headerChecks (cfg : Config) (k : Except Err Bytes) (es : List (HdrField × Nat)) :
    responseTo (builtResult (headerChecks cfg k es)) = headerResponse cfg (responseTo (builtResult k)) es := by
  induction es with
  | nil => rfl
  | cons e es ih =>
    rw [headerChecks, headerResponse, ← ih]
    split <;> rfl

theorem headerResponse_cons {cfg : Config} {f : HdrField} {n : Nat} {p : Prop} [Decidable p] {ok r : Response}
    {es : List (HdrField × Nat)} (h : hdrFieldOk cfg (f, n) = true ↔ p) (hr : headerResponse cfg ok es = r) :
    headerResponse cfg ok ((f, n) :: es) = if ¬p then .err (.fieldOutOfRange (.hdr f)) else r := by
  simp only [headerResponse, h, hr, ite_not]

theorem headerResponse_eq_ok_iff {cfg : Config} {ok : Response} {es : List (HdrField × Nat)} {q : Result} :
    headerResponse cfg ok es = .ok q ↔ (∀ e ∈ es, hdrFieldOk cfg e = true) ∧ ok = .ok q := by
  induction es with
  | nil => simp [headerResponse]
  | cons e es ih =>
    rw [headerResponse, List.forall_mem_cons]
    split
    next he => rw [ih, and_iff_right he]
    next he => simp [he]

/-! ## The bytes of a build -/

/-- `A` is the header of `H` bytes that a build writes from the values `es` and the length `n` (R67 to R70, R122). -/
structure HeaderLayout (cfg : Config) (es : List (HdrField × Nat)) (lenField : HdrField) (n H : Nat) (A : Bytes) :
    Prop where
  inside : ∀ e ∈ es ++ [(lenField, n)], hdrOffset e.1 + hdrSize cfg e.1 ≤ H
  written : writeFields cfg (zeros H) (es ++ [(lenField, n)]) = A

section
variable {es : List (HdrField × Nat)} {lenField : HdrField} {P A : Bytes} {H : Nat} {s : State}

theorem HeaderLayout.length_eq {cfg : Config} {n : Nat} (L : HeaderLayout cfg es lenField n H A) : A.length = H := by
  rw [← L.written, length_writeFields, length_zeros]
  rw [length_zeros]
  exact L.inside

/-- Everything a build answers: its field checks, the payload's size, `check`, the length field, then the bytes. -/
theorem HeaderLayout.build_eq (L : HeaderLayout s.cfg es lenField P.length H A) (max : Nat) (check : Option Err) :
    finish s (builtResult (buildCommon s.cfg es lenField P H max check)) =
      .next (s.respond (headerResponse s.cfg
        (if max < P.length then .err (.payloadTooLarge P.length max)
        else check.elim
          (if 2 ^ 32 ≤ P.length then .err (.fieldOutOfRange (.hdr lenField)) else .ok (.built (A ++ P))) .err)
        es)) := by
  have hbytes := envelope_bytes s.cfg _ H P L.inside
  rw [L.written] at hbytes
  rw [finish_eq, buildCommon_eq, responseTo_headerChecks, hbytes]
  congr 3
  cases check <;> split_ifs <;> rfl

/-- What a build that answers bytes has accepted, and which bytes it answers. -/
theorem HeaderLayout.built_iff (L : HeaderLayout s.cfg es lenField P.length H A) {max : Nat} {check : Option Err}
    {B : Bytes} :
    finish s (builtResult (buildCommon s.cfg es lenField P H max check)) = .next (s.respond (.ok (.built B))) ↔
      (∀ e ∈ es, hdrFieldOk s.cfg e = true) ∧ P.length ≤ max ∧ check = none ∧ P.length < 2 ^ 32 ∧ A ++ P = B := by
  rw [L.build_eq, next_respond_inj_iff, headerResponse_eq_ok_iff, ite_err_eq_ok_iff]
  cases check with
  | none => rw [Option.elim_none, ite_err_eq_ok_iff]; simp
  | some e => simp

end

/-- The Raw Data header (R67, R68): the compatibility id takes one or four of its sixteen bytes. -/
def rawHeaderBytes (cfg : Config) (h : RawHeader) (n : Nat) : Bytes :=
  leBytes 4 h.dataType ++ leBytes 4 n ++ leBytes 4 h.bufferId ++ leBytes 4 h.protocolVer ++
    (leBytes (compatIdSize cfg) h.compatId ++ zeros (16 - compatIdSize cfg)) ++ leBytes 4 h.transactionId ++ zeros 28

/-- The Feedback header (R69). -/
def fbHeaderBytes (h : FbHeader) (n : Nat) : Bytes :=
  leBytes 4 h.feedbackCmdType ++ leBytes 4 n ++ leBytes 4 h.bufferId ++ leBytes 4 h.protocolVer ++
    leBytes 4 h.feedbackDataType ++ leBytes 4 h.destOffset ++ zeros 40

/-- The Write header (R70). -/
def wrHeaderBytes (h : WrHeader) (n : Nat) : Bytes := leBytes 4 h.writeDataType ++ leBytes 4 n

theorem compatIdSize_eq_or (cfg : Config) : compatIdSize cfg = 4 ∨ compatIdSize cfg = 1 := by
  rw [compatIdSize_eq_ite]
  split
  · exact .inl rfl
  · exact .inr rfl

/-- The Raw Data header as R67 and R68 lay it out, the compatibility id by its size. -/
theorem rawHeaderBytes_eq (cfg : Config) (h : RawHeader) (n : Nat) :
    rawHeaderBytes cfg h n =
      bytesLe32 h.dataType ++ bytesLe32 n ++ bytesLe32 h.bufferId ++ bytesLe32 h.protocolVer ++
        (if cfg.compatIdBytes = .four then bytesLe32 h.compatId ++ List.replicate 12 0
          else BitVec.ofNat 8 h.compatId :: List.replicate 15 0) ++
        bytesLe32 h.transactionId ++ List.replicate 28 0 := by
  rw [rawHeaderBytes, compatIdSize_eq_ite]
  split <;> simp only [leBytes_four] <;> rfl

theorem fbHeaderBytes_eq (h : FbHeader) (n : Nat) :
    fbHeaderBytes h n =
      bytesLe32 h.feedbackCmdType ++ bytesLe32 n ++ bytesLe32 h.bufferId ++ bytesLe32 h.protocolVer ++
        bytesLe32 h.feedbackDataType ++ bytesLe32 h.destOffset ++ List.replicate 40 0 := by
  rw [fbHeaderBytes]
  simp only [leBytes_four, zeros]

theorem wrHeaderBytes_eq (h : WrHeader) (n : Nat) : wrHeaderBytes h n = bytesLe32 h.writeDataType ++ bytesLe32 n := by
  simp only [wrHeaderBytes, leBytes_four]

theorem rawHeader_layout (cfg : Config) (h : RawHeader) (n : Nat) :
    HeaderLayout cfg (rawEntries h) .payloadSize n 64 (rawHeaderBytes cfg h n) where
  inside := by
    have := compatIdSize_eq_or cfg
    simp only [rawEntries, hdrOffset, hdrSize, List.cons_append, List.nil_append, List.forall_mem_cons]
    exact ⟨by omega, by omega, by omega, by omega, by omega, by omega, nofun⟩
  written := by
    rw [rawHeaderBytes_eq]
    cases hc : cfg.compatIdBytes with
    | four => exact rawHeader_bytes_four cfg hc ..
    | one => exact rawHeader_bytes_one cfg hc ..

theorem fbHeader_layout (cfg : Config) (h : FbHeader) (n : Nat) :
    HeaderLayout cfg (fbEntries h) .payloadSize n 64 (fbHeaderBytes h n) where
  inside := by simp [fbEntries, hdrOffset, hdrSize]
  written := (fbHeader_bytes cfg ..).trans (fbHeaderBytes_eq h n).symm

theorem wrHeader_layout (cfg : Config) (h : WrHeader) (n : Nat) :
    HeaderLayout cfg (wrEntries h) .writeDataLen n 8 (wrHeaderBytes h n) where
  inside := by simp [wrEntries, hdrOffset, hdrSize]
  written := (wrHeader_bytes cfg ..).trans (wrHeaderBytes_eq h n).symm

/-! ## The parses (R124, R126, R128) -/

theorem rawParseResult_eq_bind (cfg : Config) (B : Bytes) :
    rawParseResult cfg B = (parseCommon cfg B 64).bind fun P =>
      if (rawParsedOf cfg B).protocolVer ≠ cfg.hostProtocolVer.toNat ∨
          (rawParsedOf cfg B).compatId ≠ cfg.hostCompatId.toNat then
        .error (.versionIncompatible (rawParsedOf cfg B).protocolVer (some (rawParsedOf cfg B).compatId))
      else
        .ok (.rawParsed (rawParsedOf cfg B) P
          (unrecognizedHdr cfg [(.dataType, (rawParsedOf cfg B).dataType)])) := by
  unfold rawParseResult rawHdrBytes
  cases parseCommon cfg B 64 <;> rfl

theorem fbParseResult_eq_bind (cfg : Config) (B : Bytes) :
    fbParseResult cfg B = (parseCommon cfg B 64).bind fun P =>
      if (fbParsedOf cfg B).protocolVer ≠ cfg.hostProtocolVer.toNat then
        .error (.versionIncompatible (fbParsedOf cfg B).protocolVer none)
      else .ok (.fbParsed (fbParsedOf cfg B) P (unrecognizedHdr cfg
        [(.feedbackCmdType, (fbParsedOf cfg B).feedbackCmdType),
          (.feedbackDataType, (fbParsedOf cfg B).feedbackDataType)])) := by
  unfold fbParseResult fbHdrBytes
  cases parseCommon cfg B 64 <;> rfl

theorem wrParseResult_eq_bind (cfg : Config) (B : Bytes) :
    wrParseResult cfg B = (parseCommon cfg B 8).bind fun P =>
      .ok (.wrParsed (wrParsedOf cfg B) P
        (unrecognizedHdr cfg [(.writeDataType, (wrParsedOf cfg B).writeDataType)])) := by
  unfold wrParseResult wrHdrBytes
  cases parseCommon cfg B 8 <;> rfl

/-- What RAW.PARSE has read and compared when it answers a header. -/
theorem exec_rawParse_eq_ok_iff {B P : Bytes} {s : State} {h : RawParsed} {u : List Field} :
    exec (.rawParse B) s = .next (s.respond (.ok (.rawParsed h P u))) ↔
      parseCommon s.cfg B 64 = .ok P ∧ rawParsedOf s.cfg B = h ∧ h.protocolVer = s.cfg.hostProtocolVer.toNat ∧
        h.compatId = s.cfg.hostCompatId.toNat ∧ unrecognizedHdr s.cfg [(.dataType, h.dataType)] = u := by
  refine finish_eq_ok_iff.trans ?_
  rw [rawParseResult_eq_bind, bind_eq_ok_iff]
  simp only [ite_error_eq_ok_iff, Except.ok.injEq, Result.rawParsed.injEq]
  constructor
  · rintro ⟨_, hP, hv, rfl, rfl, rfl⟩
    simpa [hP] using hv
  · rintro ⟨hP, rfl, hv, hc, rfl⟩
    exact ⟨P, hP, by simp [hv, hc], rfl, rfl, rfl⟩

/-- What FB.PARSE has read and compared when it answers a header. -/
theorem exec_fbParse_eq_ok_iff {B P : Bytes} {s : State} {h : FbParsed} {u : List Field} :
    exec (.fbParse B) s = .next (s.respond (.ok (.fbParsed h P u))) ↔
      parseCommon s.cfg B 64 = .ok P ∧ fbParsedOf s.cfg B = h ∧ h.protocolVer = s.cfg.hostProtocolVer.toNat ∧
        unrecognizedHdr s.cfg
          [(.feedbackCmdType, h.feedbackCmdType), (.feedbackDataType, h.feedbackDataType)] = u := by
  refine finish_eq_ok_iff.trans ?_
  rw [fbParseResult_eq_bind, bind_eq_ok_iff]
  simp only [ite_error_eq_ok_iff, Except.ok.injEq, Result.fbParsed.injEq]
  constructor
  · rintro ⟨_, hP, hv, rfl, rfl, rfl⟩
    simpa [hP] using hv
  · rintro ⟨hP, rfl, hv, rfl⟩
    exact ⟨P, hP, by simp [hv], rfl, rfl, rfl⟩

/-- What WR.PARSE has read when it answers a header. -/
theorem exec_wrParse_eq_ok_iff {B P : Bytes} {s : State} {h : WrParsed} {u : List Field} :
    exec (.wrParse B) s = .next (s.respond (.ok (.wrParsed h P u))) ↔
      parseCommon s.cfg B 8 = .ok P ∧ wrParsedOf s.cfg B = h ∧
        unrecognizedHdr s.cfg [(.writeDataType, h.writeDataType)] = u := by
  refine finish_eq_ok_iff.trans ?_
  rw [wrParseResult_eq_bind, bind_eq_ok_iff]
  simp only [Except.ok.injEq, Result.wrParsed.injEq]
  constructor
  · rintro ⟨_, hP, rfl, rfl, rfl⟩
    exact ⟨hP, rfl, rfl⟩
  · rintro ⟨hP, rfl, rfl⟩
    exact ⟨P, hP, rfl, rfl, rfl⟩

/-- The Raw Data header as R67 and R68 lay it out. -/
theorem rawParsedOf_eq (cfg : Config) (B : Bytes) :
    rawParsedOf cfg B =
      { dataType := le32 B 0, payloadSize := le32 B 4, bufferId := le32 B 8, protocolVer := le32 B 12,
        compatId := if cfg.compatIdBytes = .four then le32 B 16 else (B.getD 16 0).toNat,
        reserved := if cfg.compatIdBytes = .four then (B.drop 20).take 12 else (B.drop 17).take 15,
        transactionId := le32 B 32, privReserved := (B.drop 36).take 28 } := by
  simp only [rawParsedOf, readHdr, hdrSize, memRead_four, compatIdSize_eq_ite]
  split
  next => rw [memRead_four]; rfl
  next => rw [memRead_one]; rfl

theorem fbParsedOf_eq (cfg : Config) (B : Bytes) :
    fbParsedOf cfg B =
      { feedbackCmdType := le32 B 0, payloadSize := le32 B 4, bufferId := le32 B 8, protocolVer := le32 B 12,
        feedbackDataType := le32 B 16, destOffset := le32 B 20, reserved := (B.drop 24).take 40 } := by
  simp only [fbParsedOf, readHdr, hdrSize, memRead_four]
  rfl

theorem wrParsedOf_eq (cfg : Config) (B : Bytes) :
    wrParsedOf cfg B = { writeDataType := le32 B 0, writeDataLen := le32 B 4 } := by
  simp only [wrParsedOf, readHdr, hdrSize, memRead_four]
  rfl

/-- Settles O38 (the bare name is the model's): the structure of the parse, then the version check on the header as
R67 and R68 lay it out. -/
theorem Envelope.rawParseResult : Obligations.RawParseResult := by
  refine fun B s => ⟨rfl, ?_⟩
  intro compat reserved
  refine (finish_eq s _).trans (congrArg (Host.Outcome.next <| s.respond ·) ?_)
  rw [rawParseResult_eq_bind]
  refine responseTo_bind_parseCommon ?_
  rw [unrecognizedHdr_single_enum rfl rfl, rawParsedOf_eq]
  exact apply_ite responseTo ..

/-- Settles O40 (the bare name is the model's): the structure of the parse, then the protocol version alone. -/
theorem Envelope.fbParseResult : Obligations.FbParseResult := by
  refine fun B s => ⟨rfl, (finish_eq s _).trans (congrArg (Host.Outcome.next <| s.respond ·) ?_)⟩
  rw [fbParseResult_eq_bind]
  refine responseTo_bind_parseCommon ?_
  rw [unrecognizedHdr_cons_enum rfl rfl (unrecognizedHdr_single_enum rfl rfl), fbParsedOf_eq]
  exact apply_ite responseTo ..

/-- Settles O42 (the bare name is the model's): the structure of the parse and no check of its own. -/
theorem Envelope.wrParseResult : Obligations.WrParseResult := by
  refine fun B s => ⟨rfl, (finish_eq s _).trans (congrArg (Host.Outcome.next <| s.respond ·) ?_)⟩
  rw [wrParseResult_eq_bind]
  refine responseTo_bind_parseCommon ?_
  rw [unrecognizedHdr_single_enum rfl rfl, wrParsedOf_eq]
  rfl

/-! ## The builds (R125, R127, R129) -/

theorem rawMax_eq (cfg : Config) (t : Nat) :
    rawMax cfg t =
      if t = 0 then 32768 else if t = 1 then cfg.maxRawOther.error else if t = 2 then cfg.maxRawOther.vendorData
      else if t = 3 then cfg.maxRawOther.hidReport else cfg.maxRawOther.getFeatures := by
  match t with
  | 0 | 1 | 2 | 3 | _ + 4 => rfl

theorem writeMax_eq (cfg : Config) (t : Nat) :
    writeMax cfg t =
      if t = 0 then cfg.maxWrite.fwLoad else if t = 1 then cfg.maxWrite.dataLoad
      else if t = 2 then cfg.maxWrite.feedback else if t = 3 then cfg.maxWrite.setFeatures
      else if t = 4 then cfg.maxWrite.getFeatures else if t = 5 then cfg.maxWrite.outputReport
      else cfg.maxWrite.noDataUseDefaults := by
  match t with
  | 0 | 1 | 2 | 3 | 4 | 5 | _ + 6 => rfl

theorem windowCheck_eq_none_iff {d n : Nat} : windowCheck d n = none ↔ 0x1000 ≤ d ∧ d + n ≤ 0x1FFFF := by
  rw [windowCheck, windowLo, windowHi, ite_eq_right_iff, imp_iff_not (by simp)]
  omega

/-- Settles O39: the five field checks in byte order, then the maximum of the type, then the header's layout. -/
theorem rawBuildResult : Obligations.RawBuildResult := by
  refine fun h P s => ⟨rfl, ?_⟩
  intro compatLimit compatAndPadding max
  refine ((rawHeader_layout s.cfg h P.length).build_eq (rawMax s.cfg h.dataType) none).trans
    (congrArg (Host.Outcome.next <| s.respond ·) ?_)
  rw [rawMax_eq, rawHeaderBytes_eq]
  exact headerResponse_cons (hdrFieldOk_enum _ rfl rfl rfl (by decide)) <|
    headerResponse_cons (hdrFieldOk_word _ rfl rfl) <| headerResponse_cons (hdrFieldOk_word _ rfl rfl) <|
    headerResponse_cons (hdrFieldOk_compatId _) <| headerResponse_cons (hdrFieldOk_word _ rfl rfl) rfl

/-- Settles O41: a payload within 16384 bytes always fits the length field, so the window is the last check. -/
theorem fbBuildResult : Obligations.FbBuildResult := by
  refine fun h P s => ⟨rfl, ((fbHeader_layout s.cfg h P.length).build_eq 16384 _).trans
    (congrArg (Host.Outcome.next <| s.respond ·) ?_)⟩
  rw [fbHeaderBytes_eq]
  refine headerResponse_cons (hdrFieldOk_enum _ rfl rfl rfl (by decide)) <|
    headerResponse_cons (hdrFieldOk_word _ rfl rfl) <| headerResponse_cons (hdrFieldOk_word _ rfl rfl) <|
    headerResponse_cons (hdrFieldOk_enum _ rfl rfl rfl (by decide)) <|
    headerResponse_cons (hdrFieldOk_word _ rfl rfl) <| ite_congr rfl (fun _ => rfl) fun hmax => ?_
  rw [if_neg (by omega)]
  exact (apply_ite (Option.elim · _ _) ..)

/-- Settles O43: one field check, then the maximum of the type. -/
theorem wrBuildResult : Obligations.WrBuildResult := by
  refine fun h P s => ⟨rfl, ?_⟩
  intro m max
  refine ((wrHeader_layout s.cfg h P.length).build_eq (writeMax s.cfg h.writeDataType) none).trans
    (congrArg (Host.Outcome.next <| s.respond ·) ?_)
  rw [writeMax_eq, wrHeaderBytes_eq]
  exact headerResponse_cons (hdrFieldOk_enum _ rfl rfl rfl (by decide)) rfl

/-! ## Parsing what was built -/

/-- The values written into a Raw Data header are read back from it, and every byte between them is zero. -/
theorem rawParsedOf_append {cfg : Config} {h : RawHeader} {n : Nat} (P : Bytes)
    (hok : ∀ e ∈ rawEntries h, hdrFieldOk cfg e = true) (hn : n < 2 ^ 32) :
    rawParsedOf cfg (rawHeaderBytes cfg h n ++ P) =
      { dataType := h.dataType, payloadSize := n, bufferId := h.bufferId, protocolVer := h.protocolVer,
        compatId := h.compatId, reserved := zeros (if cfg.compatIdBytes = .four then 12 else 15),
        transactionId := h.transactionId, privReserved := zeros 28 } := by
  simp only [rawEntries, List.forall_mem_cons] at hok
  obtain ⟨htype, hbuffer, hversion, hcompat, htransaction, -⟩ := hok
  have hlen : hdrFieldOk cfg (.payloadSize, n) = true := (hdrFieldOk_word _ rfl rfl).mpr hn
  simp only [rawParsedOf, RawParsed.mk.injEq]
  obtain ⟨_, _, _, _, _, _ | _, _⟩ := cfg <;>
    exact ⟨readHdr_eq htype rfl, readHdr_eq hlen rfl, readHdr_eq hbuffer rfl, readHdr_eq hversion rfl,
      readHdr_eq hcompat rfl, rfl, readHdr_eq htransaction rfl, rfl⟩

theorem fbParsedOf_append {cfg : Config} {h : FbHeader} {n : Nat} (P : Bytes)
    (hok : ∀ e ∈ fbEntries h, hdrFieldOk cfg e = true) (hn : n < 2 ^ 32) :
    fbParsedOf cfg (fbHeaderBytes h n ++ P) =
      { feedbackCmdType := h.feedbackCmdType, payloadSize := n, bufferId := h.bufferId,
        protocolVer := h.protocolVer, feedbackDataType := h.feedbackDataType, destOffset := h.destOffset,
        reserved := zeros 40 } := by
  simp only [fbEntries, List.forall_mem_cons] at hok
  obtain ⟨hcmd, hbuffer, hversion, hdata, hdest, -⟩ := hok
  have hlen : hdrFieldOk cfg (.payloadSize, n) = true := (hdrFieldOk_word _ rfl rfl).mpr hn
  simp only [fbParsedOf, FbParsed.mk.injEq]
  exact ⟨readHdr_eq hcmd rfl, readHdr_eq hlen rfl, readHdr_eq hbuffer rfl, readHdr_eq hversion rfl,
    readHdr_eq hdata rfl, readHdr_eq hdest rfl, rfl⟩

theorem wrParsedOf_append {cfg : Config} {h : WrHeader} {n : Nat} (P : Bytes)
    (hok : ∀ e ∈ wrEntries h, hdrFieldOk cfg e = true) (hn : n < 2 ^ 32) :
    wrParsedOf cfg (wrHeaderBytes h n ++ P) = { writeDataType := h.writeDataType, writeDataLen := n } := by
  have htype := hok _ (List.mem_singleton_self _)
  have hlen : hdrFieldOk cfg (.writeDataLen, n) = true := (hdrFieldOk_word _ rfl rfl).mpr hn
  simp only [wrParsedOf, WrParsed.mk.injEq]
  exact ⟨readHdr_eq htype rfl, readHdr_eq hlen rfl⟩

/-- The payload of a built envelope is the payload given: every layout has its length field at byte 4. -/
theorem HeaderLayout.parseCommon_eq_ok {cfg : Config} {es : List (HdrField × Nat)} {lenField : HdrField}
    {P A : Bytes} {H : Nat} (L : HeaderLayout cfg es lenField P.length H A)
    (hn : readHdr cfg (A ++ P) .payloadSize = P.length) : parseCommon cfg (A ++ P) H = .ok P :=
  parseCommon_append L.length_eq ((readHdr_four _ rfl rfl).symm.trans hn)

/-- R123, law 1, for the Raw Data envelope. -/
theorem rawParse_of_built {h : RawHeader} {P B : Bytes} {s : State}
    (hbuilt : exec (.rawBuild h P) s = .next (s.respond (.ok (.built B))))
    (hversion : h.protocolVer = s.cfg.hostProtocolVer.toNat) (hcompat : h.compatId = s.cfg.hostCompatId.toNat) :
    exec (.rawParse B) s = .next (s.respond (.ok (.rawParsed
      { dataType := h.dataType, payloadSize := P.length, bufferId := h.bufferId, protocolVer := h.protocolVer,
        compatId := h.compatId, reserved := zeros (if s.cfg.compatIdBytes = .four then 12 else 15),
        transactionId := h.transactionId, privReserved := zeros 28 } P []))) := by
  have L := rawHeader_layout s.cfg h P.length
  obtain ⟨hok, -, -, hn, rfl⟩ := L.built_iff.mp hbuilt
  have hparsed := rawParsedOf_append P hok hn
  have hunrec : unrecognizedHdr s.cfg [(.dataType, h.dataType)] = [] :=
    unrecognizedHdr_of_hdrFieldOk hok (by simp [rawEntries])
  exact exec_rawParse_eq_ok_iff.mpr
    ⟨L.parseCommon_eq_ok (congrArg RawParsed.payloadSize hparsed), hparsed, hversion, hcompat, hunrec⟩

/-- R123, law 1, for the Feedback envelope. -/
theorem fbParse_of_built {h : FbHeader} {P B : Bytes} {s : State}
    (hbuilt : exec (.fbBuild h P) s = .next (s.respond (.ok (.built B))))
    (hversion : h.protocolVer = s.cfg.hostProtocolVer.toNat) :
    exec (.fbParse B) s = .next (s.respond (.ok (.fbParsed
      { feedbackCmdType := h.feedbackCmdType, payloadSize := P.length, bufferId := h.bufferId,
        protocolVer := h.protocolVer, feedbackDataType := h.feedbackDataType, destOffset := h.destOffset,
        reserved := zeros 40 } P []))) := by
  have L := fbHeader_layout s.cfg h P.length
  obtain ⟨hok, -, -, hn, rfl⟩ := L.built_iff.mp hbuilt
  have hparsed := fbParsedOf_append P hok hn
  have hunrec : unrecognizedHdr s.cfg
      [(.feedbackCmdType, h.feedbackCmdType), (.feedbackDataType, h.feedbackDataType)] = [] :=
    unrecognizedHdr_of_hdrFieldOk hok (by simp [fbEntries])
  exact exec_fbParse_eq_ok_iff.mpr
    ⟨L.parseCommon_eq_ok (congrArg FbParsed.payloadSize hparsed), hparsed, hversion, hunrec⟩

/-- R123, law 1, for the Write envelope. -/
theorem wrParse_of_built {h : WrHeader} {P B : Bytes} {s : State}
    (hbuilt : exec (.wrBuild h P) s = .next (s.respond (.ok (.built B)))) :
    exec (.wrParse B) s = .next (s.respond (.ok (.wrParsed
      { writeDataType := h.writeDataType, writeDataLen := P.length } P []))) := by
  have L := wrHeader_layout s.cfg h P.length
  obtain ⟨hok, -, -, hn, rfl⟩ := L.built_iff.mp hbuilt
  have hparsed := wrParsedOf_append P hok hn
  have hunrec : unrecognizedHdr s.cfg [(.writeDataType, h.writeDataType)] = [] :=
    unrecognizedHdr_of_hdrFieldOk hok (List.Subset.refl _)
  exact exec_wrParse_eq_ok_iff.mpr
    ⟨L.parseCommon_eq_ok (congrArg WrParsed.writeDataLen hparsed), hparsed, hunrec⟩

/-! ## The Error payload (R130, R131) -/

/-- The twelve bytes of an Error payload (R71). -/
def errpBytesOf (errorType flags : Nat) (err : Word) : Bytes :=
  BitVec.ofNat 8 errorType :: List.replicate 3 0 ++ bytesLe32 flags ++ bytesLe32 err.toNat

/-- What an accepted Error payload holds, and its bytes. -/
theorem errpBuildBytes_ok {cfg : Config} {h : ErrpHeader} {B : Bytes} (hB : errpBuildBytes cfg h = .ok B) :
    h.errorType ≤ 255 ∧ h.invalidFrameCharacteristics ≤ 1 ∧ h.microframeIndexInvalid ≤ 1 ∧
      (∀ e ∈ errorEntries h.err, regFieldOk cfg e = true) ∧
      B = errpBytesOf h.errorType (h.invalidFrameCharacteristics ||| h.microframeIndexInvalid <<< 1)
        (packFields (errorEntries h.err)) := by
  unfold errpBuildBytes at hB
  simp only [ite_error_eq_ok_iff, not_lt] at hB
  obtain ⟨htype, hinvalid, hindex, hB⟩ := hB
  obtain ⟨e, -, -, herr⟩ | ⟨hok, hword⟩ := encodeFields_cases cfg (errorEntries h.err)
  · rw [herr] at hB; cases hB
  · rw [hword] at hB; cases hB
    exact ⟨htype, hinvalid, hindex, hok, errp_bytes ..⟩

theorem exec_errpBuild_built_iff {h : ErrpHeader} {B : Bytes} {s : State} :
    exec (.errpBuild h) s = .next (s.respond (.ok (.built B))) ↔ errpBuildBytes s.cfg h = .ok B := by
  refine finish_eq_ok_iff.trans ?_
  cases errpBuildBytes s.cfg h <;> simp [builtResult]

theorem exec_errpParse_of_length {B : Bytes} (hB : B.length = 12) (s : State) :
    exec (.errpParse B) s = .next (s.respond (.ok (.errpParsed (errpParsedOf s.cfg B)))) := by
  refine finish_eq_ok_iff.mpr ?_
  rw [errpParseResult, hB, if_neg (by decide), if_neg (fun h => absurd h.1 (by decide))]

theorem memReadWord_eq {B : Bytes} {i v : Nat} (h : sub B i (i + 4) = bytesLe32 v) :
    memReadWord B i = BitVec.ofNat 32 v := by
  rw [memReadWord, memRead, h, ← leBytes_four, leValue_leBytes]
  exact BitVec.eq_of_toNat_eq (by simp)

/-- Bits 0 and 1 of the firmware error word are the two flags (R71). -/
theorem bits_flags {a b : Nat} (ha : a ≤ 1) (hb : b ≤ 1) :
    bits (BitVec.ofNat 32 (a ||| b <<< 1)) 0 0 = a ∧ bits (BitVec.ofNat 32 (a ||| b <<< 1)) 1 1 = b := by
  interval_cases a <;> interval_cases b <;> decide

theorem errpParsedOf_errpBytesOf (cfg : Config) {t a b : Nat} (err : Word) (ht : t ≤ 255) (ha : a ≤ 1) (hb : b ≤ 1) :
    errpParsedOf cfg (errpBytesOf t (a ||| b <<< 1) err) =
      { errorType := t, reserved := zeros 3, fwWord := BitVec.ofNat 32 (a ||| b <<< 1),
        invalidFrameCharacteristics := a, microframeIndexInvalid := b, errRaw := err, err := decodeError err } := by
  have htype : readHdr cfg (errpBytesOf t (a ||| b <<< 1) err) .errorType = t :=
    readHdr_eq ((hdrFieldOk_byte _ rfl rfl).mpr (Nat.lt_succ_of_le ht)) rfl
  have hfw : memReadWord (errpBytesOf t (a ||| b <<< 1) err) 4 = BitVec.ofNat 32 (a ||| b <<< 1) := memReadWord_eq rfl
  have herr : memReadWord (errpBytesOf t (a ||| b <<< 1) err) 8 = err := (memReadWord_eq rfl).trans (by simp)
  obtain ⟨hinvalid, hindex⟩ := bits_flags ha hb
  simp only [errpParsedOf, hdrOffset, errRegOffset, htype, hfw, herr, hinvalid, hindex]
  rfl

/-- The Error payload's round trip: the flags by their bits, the Error view as REG.DECODE.ERROR reads it. -/
theorem errpParse_of_built {h : ErrpHeader} {B : Bytes} {s : State}
    (hbuilt : exec (.errpBuild h) s = .next (s.respond (.ok (.built B)))) :
    ∃ fw raw, exec (.errpParse B) s = .next (s.respond (.ok (.errpParsed
      { errorType := h.errorType, reserved := zeros 3, fwWord := fw,
        invalidFrameCharacteristics := h.invalidFrameCharacteristics,
        microframeIndexInvalid := h.microframeIndexInvalid, errRaw := raw, err := h.err }))) := by
  obtain ⟨htype, hinvalid, hindex, hok, rfl⟩ := errpBuildBytes_ok (exec_errpBuild_built_iff.mp hbuilt)
  have hview : decodeError (packFields (errorEntries h.err)) = h.err :=
    viewOf_error.view_readField_packFields fun e he => fits_of_regFieldOk (hok e he)
  have hparsed := errpParsedOf_errpBytesOf s.cfg (packFields (errorEntries h.err)) htype hinvalid hindex
  rw [hview] at hparsed
  exact ⟨_, _, hparsed ▸ exec_errpParse_of_length rfl s⟩

/-- Settles O46: each header reads back the values written, and the payload follows it. -/
theorem parseOfBuildReturnsHeaderAndPayload : Obligations.ParseOfBuildReturnsHeaderAndPayload :=
  ⟨fun _ _ _ _ => rawParse_of_built, fun _ _ _ _ => fbParse_of_built, fun _ _ _ _ => wrParse_of_built,
    fun _ _ _ => errpParse_of_built⟩

/-! ## Building what was parsed -/

/-- The bytes of a word read from a header are the bytes it was read from. -/
theorem leBytes_four_readHdr {cfg : Config} {B : Bytes} (f : HdrField) (i : Nat) (ho : hdrOffset f = i)
    (hs : hdrSize cfg f = 4) (h : i + 4 ≤ B.length) : leBytes 4 (readHdr cfg B f) = sub B i (i + 4) := by
  subst ho
  rw [← hs] at h ⊢
  exact leBytes_readHdr h

/-- A Raw Data header with zero reserved bytes is the header of the values read from it. -/
theorem rawHeaderBytes_rawParsedOf {cfg : Config} {B : Bytes} {h : RawParsed} (hh : rawParsedOf cfg B = h)
    (hB : 64 ≤ B.length) (hz : ∀ b ∈ h.reserved ++ h.privReserved, b = 0) :
    rawHeaderBytes cfg ⟨h.dataType, h.bufferId, h.protocolVer, h.compatId, h.transactionId⟩ h.payloadSize =
      sub B 0 64 := by
  subst hh
  obtain ⟨hreserved, hpriv⟩ := List.forall_mem_append.mp hz
  have hsize := compatIdSize_eq_or cfg
  have hcompat : leBytes (compatIdSize cfg) (readHdr cfg B .compatId) = sub B 16 (16 + compatIdSize cfg) :=
    leBytes_readHdr (f := .compatId) (by simp only [hdrOffset, hdrSize]; omega)
  have hzeros : zeros (16 - compatIdSize cfg) = sub B (16 + compatIdSize cfg) 32 := by
    rw [← Nat.add_sub_add_left 16]
    exact (sub_eq_zeros (show 32 ≤ B.length by omega) hreserved).symm
  have hprivZeros : zeros 28 = sub B 36 64 := (sub_eq_zeros hB hpriv).symm
  simp only [rawHeaderBytes, rawParsedOf]
  rw [leBytes_four_readHdr .dataType 0 rfl rfl (by omega), leBytes_four_readHdr .payloadSize 4 rfl rfl (by omega),
    leBytes_four_readHdr .bufferId 8 rfl rfl (by omega), leBytes_four_readHdr .protocolVer 12 rfl rfl (by omega),
    leBytes_four_readHdr .transactionId 32 rfl rfl (by omega), hcompat, hzeros, hprivZeros]
  simp (disch := omega) only [sub_append_sub]

theorem fbHeaderBytes_fbParsedOf {cfg : Config} {B : Bytes} {h : FbParsed} (hh : fbParsedOf cfg B = h)
    (hB : 64 ≤ B.length) (hz : ∀ b ∈ h.reserved, b = 0) :
    fbHeaderBytes ⟨h.feedbackCmdType, h.bufferId, h.protocolVer, h.feedbackDataType, h.destOffset⟩ h.payloadSize =
      sub B 0 64 := by
  subst hh
  have hzeros : zeros 40 = sub B 24 64 := (sub_eq_zeros hB hz).symm
  simp only [fbHeaderBytes, fbParsedOf]
  rw [leBytes_four_readHdr .feedbackCmdType 0 rfl rfl (by omega),
    leBytes_four_readHdr .payloadSize 4 rfl rfl (by omega), leBytes_four_readHdr .bufferId 8 rfl rfl (by omega),
    leBytes_four_readHdr .protocolVer 12 rfl rfl (by omega),
    leBytes_four_readHdr .feedbackDataType 16 rfl rfl (by omega),
    leBytes_four_readHdr .destOffset 20 rfl rfl (by omega), hzeros]
  simp (disch := omega) only [sub_append_sub]

theorem wrHeaderBytes_wrParsedOf {cfg : Config} {B : Bytes} {h : WrParsed} (hh : wrParsedOf cfg B = h)
    (hB : 8 ≤ B.length) : wrHeaderBytes ⟨h.writeDataType⟩ h.writeDataLen = sub B 0 8 := by
  subst hh
  simp only [wrHeaderBytes, wrParsedOf]
  rw [leBytes_four_readHdr .writeDataType 0 rfl rfl (by omega),
    leBytes_four_readHdr .writeDataLen 4 rfl rfl (by omega)]
  exact sub_append_sub B (by decide) (by decide)

/-- R123, law 2, for the Raw Data envelope. -/
theorem rawBuild_of_parsed {B P : Bytes} {s : State} {h : RawParsed} (ht : s.cfg.allowTrailingBytes = false)
    (hparsed : exec (.rawParse B) s = .next (s.respond (.ok (.rawParsed h P []))))
    (hz : ∀ b ∈ h.reserved ++ h.privReserved, b = 0) (hmax : P.length ≤ rawMax s.cfg h.dataType) :
    exec (.rawBuild ⟨h.dataType, h.bufferId, h.protocolVer, h.compatId, h.transactionId⟩ P) s =
      .next (s.respond (.ok (.built B))) := by
  obtain ⟨hP, hh, -, -, hunrec⟩ := exec_rawParse_eq_ok_iff.mp hparsed
  obtain ⟨hB, hn, happend⟩ := eq_append_of_parseCommon ht hP
  have hsize : h.payloadSize = P.length := by rw [hn, ← hh]; exact readHdr_four B rfl rfl
  have htype : beyondMax s.cfg (hdrEnum .dataType) h.dataType = false :=
    unrecognizedHdr_eq_nil_iff.mp hunrec _ (List.mem_singleton_self _)
  have hok : ∀ e ∈ rawEntries ⟨h.dataType, h.bufferId, h.protocolVer, h.compatId, h.transactionId⟩,
      hdrFieldOk s.cfg e = true := by
    subst hh
    simp only [rawEntries, List.forall_mem_cons]
    exact ⟨hdrFieldOk_readHdr htype, hdrFieldOk_readHdr rfl, hdrFieldOk_readHdr rfl, hdrFieldOk_readHdr rfl,
      hdrFieldOk_readHdr rfl, nofun⟩
  refine (rawHeader_layout s.cfg _ P.length).built_iff.mpr ⟨hok, hmax, rfl, hn ▸ le32_lt B 4, ?_⟩
  rw [← hsize, rawHeaderBytes_rawParsedOf hh hB hz, happend]

/-- R123, law 2, for the Feedback envelope. -/
theorem fbBuild_of_parsed {B P : Bytes} {s : State} {h : FbParsed} (ht : s.cfg.allowTrailingBytes = false)
    (hparsed : exec (.fbParse B) s = .next (s.respond (.ok (.fbParsed h P []))))
    (hz : ∀ b ∈ h.reserved, b = 0) (hmax : P.length ≤ 16384) (hlo : 0x1000 ≤ h.destOffset)
    (hhi : h.destOffset + P.length ≤ 0x1FFFF) :
    exec (.fbBuild ⟨h.feedbackCmdType, h.bufferId, h.protocolVer, h.feedbackDataType, h.destOffset⟩ P) s =
      .next (s.respond (.ok (.built B))) := by
  obtain ⟨hP, hh, -, hunrec⟩ := exec_fbParse_eq_ok_iff.mp hparsed
  obtain ⟨hB, hn, happend⟩ := eq_append_of_parseCommon ht hP
  have hsize : h.payloadSize = P.length := by rw [hn, ← hh]; exact readHdr_four B rfl rfl
  obtain ⟨hcmd, hdata, -⟩ : beyondMax s.cfg (hdrEnum .feedbackCmdType) h.feedbackCmdType = false ∧
      beyondMax s.cfg (hdrEnum .feedbackDataType) h.feedbackDataType = false ∧ _ := by
    simpa only [List.forall_mem_cons] using unrecognizedHdr_eq_nil_iff.mp hunrec
  have hok : ∀ e ∈ fbEntries ⟨h.feedbackCmdType, h.bufferId, h.protocolVer, h.feedbackDataType, h.destOffset⟩,
      hdrFieldOk s.cfg e = true := by
    subst hh
    simp only [fbEntries, List.forall_mem_cons]
    exact ⟨hdrFieldOk_readHdr hcmd, hdrFieldOk_readHdr rfl, hdrFieldOk_readHdr rfl, hdrFieldOk_readHdr hdata,
      hdrFieldOk_readHdr rfl, nofun⟩
  refine (fbHeader_layout s.cfg _ P.length).built_iff.mpr
    ⟨hok, hmax, windowCheck_eq_none_iff.mpr ⟨hlo, hhi⟩, hn ▸ le32_lt B 4, ?_⟩
  rw [← hsize, fbHeaderBytes_fbParsedOf hh hB hz, happend]

/-- R123, law 2, for the Write envelope. -/
theorem wrBuild_of_parsed {B P : Bytes} {s : State} {h : WrParsed} (ht : s.cfg.allowTrailingBytes = false)
    (hparsed : exec (.wrParse B) s = .next (s.respond (.ok (.wrParsed h P []))))
    (hmax : P.length ≤ writeMax s.cfg h.writeDataType) :
    exec (.wrBuild ⟨h.writeDataType⟩ P) s = .next (s.respond (.ok (.built B))) := by
  obtain ⟨hP, hh, hunrec⟩ := exec_wrParse_eq_ok_iff.mp hparsed
  obtain ⟨hB, hn, happend⟩ := eq_append_of_parseCommon ht hP
  have hsize : h.writeDataLen = P.length := by rw [hn, ← hh]; exact readHdr_four B rfl rfl
  have htype : beyondMax s.cfg (hdrEnum .writeDataType) h.writeDataType = false :=
    unrecognizedHdr_eq_nil_iff.mp hunrec _ (List.mem_singleton_self _)
  have hok : ∀ e ∈ wrEntries ⟨h.writeDataType⟩, hdrFieldOk s.cfg e = true := by
    subst hh
    simp only [wrEntries, List.forall_mem_cons]
    exact ⟨hdrFieldOk_readHdr htype, nofun⟩
  refine (wrHeader_layout s.cfg _ P.length).built_iff.mpr ⟨hok, hmax, rfl, hn ▸ le32_lt B 4, ?_⟩
  rw [← hsize, wrHeaderBytes_wrParsedOf hh hB, happend]

/-- Settles O47: the values read are accepted again, and their bytes are the slices they were read from. -/
theorem buildOfParsedHeaderReturnsTheBytes : Obligations.BuildOfParsedHeaderReturnsTheBytes :=
  fun _ _ _ ht => ⟨fun _ => rawBuild_of_parsed ht, fun _ => fbBuild_of_parsed ht, fun _ => wrBuild_of_parsed ht⟩

end Sys2Proof.Machine

/-! PROOFS of 43_state_interpreter.md: what the State Interpreter answers on a Status snapshot and a requested word. -/

namespace Sys2Proof.Machine

/-! ## Enumerated values (R65) -/

theorem intClassOf_eq : ∀ n, intClassOf n =
    if n = 0 then .dataAvailable else if n = 1 then .resetOccurred else if n = 2 then .errorOccurred
    else if n = 3 then .vendorData else if n = 4 then .getFeaturesAvailable else .unrecognized n
  | 0 | 1 | 2 | 3 | 4 => rfl
  | _ + 5 => rfl

theorem pwrStateOf_eq : ∀ n, pwrStateOf n =
    if n = 0 then .sleep else if n = 1 then .doze else if n = 2 then .armed else .sensing
  | 0 | 1 | 2 => rfl
  | _ + 3 => rfl

theorem initStateOf_eq : ∀ n, initStateOf n =
    if n = 0 then .readyForOp else if n = 1 then .fwNeeded else if n = 2 then .dataNeeded else .initError
  | 0 | 1 | 2 => rfl
  | _ + 3 => rfl

/-- NOP and the commands from `PWRCMD_MAX` on ask for no power state; the others ask for theirs (R135). -/
theorem pwrTargetOf_elim {α : Type} (noChange : α) (request : PwrState → α) : ∀ c,
    (pwrTargetOf c).elim noChange request =
      if c = 0 ∨ 5 ≤ c then noChange
      else request (if c = 1 then .sleep else if c = 2 then .doze else if c = 3 then .armed else .sensing)
  | 0 | 1 | 2 | 3 | 4 => rfl
  | c + 5 => (if_pos (.inr (Nat.le_add_left 5 c))).symm

/-- NOP and the codes from `CMD_MAX` on name no command; the others name theirs (R136). -/
theorem commandOf_elim {α : Type} (noOp : α) (request : Command → α) : ∀ c,
    (commandOf c).elim noOp request =
      if c = 0 ∨ 4 ≤ c then noOp
      else request (if c = 1 then .softReset else if c = 2 then .prepForRead else .genTestPackets)
  | 0 | 1 | 2 | 3 => rfl
  | c + 4 => (if_pos (.inr (Nat.le_add_left 4 c))).symm

/-! ## The operands -/

/-- The fields of a Status snapshot as R11 writes them. -/
theorem decodeStatus_eq (w : Word) : decodeStatus w =
    { intStatus := w.toNat / 2 ^ 0 % 2 ^ 1, intType := w.toNat / 2 ^ 1 % 2 ^ 4, pwrState := w.toNat / 2 ^ 5 % 2 ^ 2,
      initState := w.toNat / 2 ^ 7 % 2 ^ 2, busy := w.toNat / 2 ^ 9 % 2 ^ 1, syncByte := w.toNat / 2 ^ 24 % 2 ^ 8 } :=
  congrArg statusOf (readField_eq_slice w)

/-- Bits 31:3 of a Power Management Control word are ignored. -/
theorem pwrCtl_pwrStateCmd (p : Word) : (decodePwrCtl p).pwrStateCmd = p.toNat % 2 ^ 3 := by
  have h : (decodePwrCtl p).pwrStateCmd = readField p .pwrStateCmd := rfl
  rw [h, readField_at p (lo := 0) (n := 3) rfl rfl, Nat.pow_zero, Nat.div_one]

/-- Bits 31:8 of a Command word are ignored. -/
theorem cmd_commandCode (k : Word) : (decodeCmd k).commandCode = k.toNat % 2 ^ 8 := by
  have h : (decodeCmd k).commandCode = readField k .commandCode := rfl
  rw [h, readField_at k (lo := 0) (n := 8) rfl rfl, Nat.pow_zero, Nat.div_one]

/-! ## The checks of a validation -/

/-- The sync byte is checked before the busy bit, and both before the requested word. -/
theorem snapshotInvalid_elim {α : Type} (cfg : Config) (w : Word) (valid : α) (invalid : InvalidReason → α) :
    (snapshotInvalid cfg w).elim valid invalid =
      if w.toNat / 2 ^ 24 ≠ 0x5A then invalid .syncMismatch
      else if cfg.busyGatesValidate = true ∧ w.toNat / 2 ^ 9 % 2 ^ 1 = 1 then invalid .busy
      else valid := by
  simp only [snapshotInvalid, syncMismatch_eq, decodeStatus_eq, decide_eq_true_eq,
    apply_ite (Option.elim · valid invalid), Option.elim_some, Option.elim_none]

theorem ite_powerLegal {α : Type} (cfg : Config) (cur tgt : PwrState) (legal illegal : α) :
    (if powerLegal cfg cur tgt then legal else illegal) =
      if (cur, tgt) ∈ cfg.powerForbidden then illegal else legal := by
  simp [powerLegal]

theorem ite_cmdLegal {α : Type} (cfg : Config) (init : InitState) (cmd : Command) (legal illegal : α) :
    (if cmdLegal cfg init cmd then legal else illegal) =
      if (init, cmd) ∈ cfg.cmdForbidden then illegal else legal := by
  simp [cmdLegal]

/-! ## The operations -/

/-- The snapshot's checks, then the target, then its legality (R135). -/
theorem validatePower_eq_elim (cfg : Config) (w p : Word) :
    validatePower cfg w p =
      (snapshotInvalid cfg w).elim
        ((pwrTargetOf (decodePwrCtl p).pwrStateCmd).elim
          (.accepted .noChange (decide (5 ≤ (decodePwrCtl p).pwrStateCmd)) (pwrStateOf (decodeStatus w).pwrState))
          fun tgt =>
            if powerLegal cfg (pwrStateOf (decodeStatus w).pwrState) tgt then
              .accepted (.state tgt) false (pwrStateOf (decodeStatus w).pwrState)
            else .invalid .illegalTransition)
        .invalid := by
  dsimp only [validatePower]
  cases snapshotInvalid cfg w with
  | some r => rfl
  | none => cases pwrTargetOf (decodePwrCtl p).pwrStateCmd <;> rfl

/-- The snapshot's checks, then the command, then its legality (R136). -/
theorem validateCommand_eq_elim (cfg : Config) (w k : Word) :
    validateCommand cfg w k =
      (snapshotInvalid cfg w).elim
        ((commandOf (decodeCmd k).commandCode).elim
          (.accepted .noOp (decide (4 ≤ (decodeCmd k).commandCode)))
          fun cmd =>
            if cmdLegal cfg (initStateOf (decodeStatus w).initState) cmd then .accepted (.command cmd) false
            else .invalid .illegalTransition)
        .invalid := by
  dsimp only [validateCommand]
  cases snapshotInvalid cfg w with
  | some r => rfl
  | none => cases commandOf (decodeCmd k).commandCode <;> rfl

/-- Settles O49: `validatePower` in R135's order, each of its checks by the rule for it. -/
theorem statePwrvalResult : Obligations.StatePwrvalResult := by
  refine fun w p s => ⟨rfl, ?_⟩
  intro x c cur tgt
  change execStatePwrval w p s = _
  rw [execStatePwrval, answer_eq, validatePower_eq_elim, snapshotInvalid_elim, pwrTargetOf_elim, ite_powerLegal,
    pwrStateOf_eq, decodeStatus_eq, pwrCtl_pwrStateCmd]
  rfl

/-- Settles O50: `validateCommand` in R136's order, each of its checks by the rule for it. -/
theorem stateCmdvalResult : Obligations.StateCmdvalResult := by
  refine fun w k s => ⟨rfl, ?_⟩
  intro x c init cmd
  change execStateCmdval w k s = _
  rw [execStateCmdval, answer_eq, validateCommand_eq_elim, snapshotInvalid_elim, commandOf_elim, ite_cmdLegal,
    initStateOf_eq, decodeStatus_eq, cmd_commandCode]
  rfl

/-- Settles O48: `classify` reads each field of the snapshot by itself. -/
theorem stateClassifyResult : Obligations.StateClassifyResult := by
  refine fun w s => ⟨rfl, classify w, rfl, syncMismatch_eq w, fun _ => ?_⟩
  rw [classify, decodeStatus_eq]
  exact ⟨intClassOf_eq _, rfl, pwrStateOf_eq _, initStateOf_eq _, rfl⟩

end Sys2Proof.Machine

/-! PROOFS of 60_exceptions.md: what a request that raises an error leaves of the state. -/

namespace Sys2Proof.Machine

/-! ## The units that never raise a `ReassemblyError` (R139) -/

/-- `x` is a result, or an error of another code than `ReassemblyError`. -/
def NeverReassembly {α : Type} (x : Except Err α) : Prop := ∀ r, x ≠ .error (.reassemblyError r)

theorem NeverReassembly.ite {α : Type} {x y : Except Err α} {p : Prop} [Decidable p] (hx : NeverReassembly x)
    (hy : NeverReassembly y) : NeverReassembly (if p then x else y) := by
  split <;> assumption

theorem NeverReassembly.bind {α β : Type} {x : Except Err α} {k : α → Except Err β} (hx : NeverReassembly x)
    (hk : ∀ a, NeverReassembly (k a)) : NeverReassembly (x.bind k) := by
  cases x with
  | ok a => exact hk a
  | error e => exact fun r h => hx r (congrArg Except.error (Except.error.inj h))

theorem NeverReassembly.builtResult {x : Except Err Bytes} (hx : NeverReassembly x) :
    NeverReassembly (builtResult x) := by
  have h : Machine.builtResult x = x.bind fun bs => .ok (.built bs) := by cases x <;> rfl
  exact h ▸ hx.bind fun _ => nofun

theorem encodeFields_neverReassembly (cfg : Config) (es : List (RegField × Nat)) :
    NeverReassembly (encodeFields cfg es) := by
  obtain ⟨e, -, -, h⟩ | ⟨-, h⟩ := encodeFields_cases cfg es <;> rw [h] <;> exact nofun

theorem encodeResult_neverReassembly (cfg : Config) (es : List (RegField × Nat)) :
    NeverReassembly (encodeResult cfg es) := by
  have h : encodeResult cfg es = (encodeFields cfg es).bind fun w => .ok (.word w) := by
    unfold encodeResult
    cases encodeFields cfg es <;> rfl
  exact h ▸ (encodeFields_neverReassembly cfg es).bind fun _ => nofun

theorem parseCommon_neverReassembly (cfg : Config) (B : Bytes) (H : Nat) :
    NeverReassembly (parseCommon cfg B H) := by
  rw [parseCommon_eq]
  exact .ite nofun (.ite nofun (.ite nofun nofun))

theorem rawParseResult_neverReassembly (cfg : Config) (B : Bytes) : NeverReassembly (rawParseResult cfg B) :=
  rawParseResult_eq_bind cfg B ▸ (parseCommon_neverReassembly cfg B 64).bind fun _ => .ite nofun nofun

theorem fbParseResult_neverReassembly (cfg : Config) (B : Bytes) : NeverReassembly (fbParseResult cfg B) :=
  fbParseResult_eq_bind cfg B ▸ (parseCommon_neverReassembly cfg B 64).bind fun _ => .ite nofun nofun

theorem wrParseResult_neverReassembly (cfg : Config) (B : Bytes) : NeverReassembly (wrParseResult cfg B) :=
  wrParseResult_eq_bind cfg B ▸ (parseCommon_neverReassembly cfg B 8).bind fun _ => nofun

theorem errpParseResult_neverReassembly (cfg : Config) (B : Bytes) : NeverReassembly (errpParseResult cfg B) :=
  .ite nofun (.ite nofun nofun)

theorem headerChecks_neverReassembly (cfg : Config) {k : Except Err Bytes} (hk : NeverReassembly k)
    (es : List (HdrField × Nat)) : NeverReassembly (headerChecks cfg k es) := by
  induction es with
  | nil => exact hk
  | cons e es ih => exact .ite ih nofun

/-- A build raises a `ReassemblyError` only if its operation-specific check does. -/
theorem buildCommon_neverReassembly (cfg : Config) (es : List (HdrField × Nat)) (lenField : HdrField) (P : Bytes)
    (H max : Nat) {check : Option Err} (hcheck : ∀ r, check ≠ some (.reassemblyError r)) :
    NeverReassembly (buildCommon cfg es lenField P H max check) := by
  rw [buildCommon_eq]
  apply headerChecks_neverReassembly
  refine .ite nofun ?_
  cases check with
  | none => exact .ite nofun nofun
  | some e => exact fun r h => hcheck r (congrArg some (Except.error.inj h))

theorem windowCheck_ne_reassemblyError (dest len : Nat) (r : ReassemblyReason) :
    windowCheck dest len ≠ some (.reassemblyError r) := by
  unfold windowCheck
  split <;> exact nofun

theorem rawBuildBytes_neverReassembly (cfg : Config) (h : RawHeader) (P : Bytes) :
    NeverReassembly (rawBuildBytes cfg h P) := buildCommon_neverReassembly cfg _ _ P _ _ nofun

theorem fbBuildBytes_neverReassembly (cfg : Config) (h : FbHeader) (P : Bytes) :
    NeverReassembly (fbBuildBytes cfg h P) :=
  buildCommon_neverReassembly cfg _ _ P _ _ (windowCheck_ne_reassemblyError h.destOffset P.length)

theorem wrBuildBytes_neverReassembly (cfg : Config) (h : WrHeader) (P : Bytes) :
    NeverReassembly (wrBuildBytes cfg h P) := buildCommon_neverReassembly cfg _ _ P _ _ nofun

theorem errpBuildBytes_neverReassembly (cfg : Config) (h : ErrpHeader) : NeverReassembly (errpBuildBytes cfg h) := by
  refine .ite nofun (.ite nofun (.ite nofun ?_))
  obtain ⟨e, -, -, herr⟩ | ⟨-, hword⟩ := encodeFields_cases cfg (errorEntries h.err)
  · rw [herr]; exact nofun
  · rw [hword]; exact nofun

/-! ## What an error leaves (R142) -/

/-- `t` is what an error other than a `ReassemblyError` leaves of `s`: the response is added, nothing is written. -/
def OnlyReports (s t : State) (e : Err) : Prop := (∀ r, e ≠ .reassemblyError r) ∧ t = s.respond (.err e)

/-- `t` is what a `ReassemblyError` leaves of `s`: instance `d` is faulted besides (R117). -/
def FaultsInstance (s t : State) (d : Nat) (e : Err) : Prop :=
  ∃ r, e = .reassemblyError r ∧ d < s.instances.length ∧ t = (s.setInstance d (faultWith r).1).respond (.err e)

theorem answer_reports_no_error {s t : State} {q : Result} {e : Err} (h : answer s q = .next t) :
    t.responses ≠ s.responses ++ [.err e] := by
  cases h
  simp

theorem onlyReports_of_finish {s t : State} {x : Except Err Result} {e : Err} (hx : NeverReassembly x)
    (h : finish s x = .next t) (ht : t.responses = s.responses ++ [.err e]) : OnlyReports s t e := by
  cases x with
  | ok q => exact absurd ht (answer_reports_no_error h)
  | error e' =>
    cases h
    obtain rfl : e' = e := by simpa using ht
    exact ⟨fun r he => hx r (he ▸ rfl), rfl⟩

/-- Every error of a micro-frame comes with the fault of its instance. -/
theorem exists_faultWith_of_pushFrame_err {R : Reassembler} {fc : Word} {data : Bytes} {e : Err}
    (h : (pushFrame R fc data).2 = .err e) : ∃ r, pushFrame R fc data = faultWith r := by
  obtain ⟨-, -, hr⟩ | hr | ⟨-, ⟨-, hr⟩ | ⟨-, hr⟩⟩ := pushFrame_cases R fc data
  · rw [hr] at h; cases h
  · exact hr
  · rw [hr] at h ⊢
    obtain ho | ⟨-, -, -, ho⟩ | ⟨-, -, -, ho⟩ := openFrame_cases (decodeFrameChar fc) data
    · exact ho
    · rw [ho] at h; cases h
    · rw [ho] at h; cases h
  · rw [hr] at h ⊢
    obtain ha | ⟨-, ⟨-, ha⟩ | ⟨-, ha⟩⟩ := appendFrame_cases R (decodeFrameChar fc) data
    · exact ha
    · rw [ha] at h; cases h
    · rw [ha] at h; cases h

/-- A micro-frame for an instance that does not exist is only reported (R23); any other error faults the instance. -/
theorem execFramePush_err {d : Nat} {fc : Word} {data : Bytes} {s t : State} {e : Err}
    (h : execFramePush d fc data s = .next t) (ht : t.responses = s.responses ++ [.err e]) :
    OnlyReports s t e ∨ FaultsInstance s t d e := by
  cases hd : s.instances[d]? with
  | none =>
    cases (execFramePush_of_none hd fc data).symm.trans h
    obtain rfl : Err.unknownOperation 0x1000 = e := by simpa using ht
    exact .inl ⟨nofun, rfl⟩
  | some R =>
    cases (execFramePush_of_some hd fc data).symm.trans h
    have hresp : (pushFrame R fc data).2 = .err e := by simpa using ht
    obtain ⟨r, hr⟩ := exists_faultWith_of_pushFrame_err hresp
    obtain rfl : Err.reassemblyError r = e := by simpa [hr] using hresp
    exact .inr ⟨r, rfl, (List.getElem?_eq_some_iff.mp hd).1, by rw [hr]; rfl⟩

theorem execFrameReset_err {d : Nat} {s t : State} {e : Err} (h : execFrameReset d s = .next t)
    (ht : t.responses = s.responses ++ [.err e]) : OnlyReports s t e := by
  cases hd : s.instances[d]? with
  | none =>
    cases (execFrameReset_of_none hd).symm.trans h
    obtain rfl : Err.unknownOperation 0x1001 = e := by simpa using ht
    exact ⟨nofun, rfl⟩
  | some R =>
    cases (execFrameReset_of_some hd).symm.trans h
    simp at ht

/-- Everything an error can leave: the decoders and the State Interpreter raise none, the encoders and the Envelope
codec report theirs, and FRAME.PUSH may fault its instance. -/
theorem exec_err_cases {i : Instr} {s t : State} {e : Err} (h : exec i s = .next t)
    (ht : t.responses = s.responses ++ [.err e]) :
    OnlyReports s t e ∨ ∃ d fc data, i = .framePush d fc data ∧ FaultsInstance s t d e := by
  cases i with
  | framePush d fc data => exact (execFramePush_err h ht).imp_right fun hf => ⟨d, fc, data, rfl, hf⟩
  | frameReset d => exact .inl (execFrameReset_err h ht)
  | regDecodeStatus | regDecodeFrameChar | regDecodeError | regDecodeId | regDecodeDataSize | regDecodeCaps
  | regDecodeConfig | regDecodeCmd | regDecodePwrCtl | regDecodeVendorHw | regDecodeHwRev | regDecodeFwRev
  | regDecodeCompat | regDecodeTestCtl | stateClassify | statePwrval | stateCmdval =>
    exact absurd ht (answer_reports_no_error h)
  | regEncodeStatus | regEncodeFrameChar | regEncodeError | regEncodeId | regEncodeDataSize | regEncodeCaps
  | regEncodeConfig | regEncodeCmd | regEncodePwrCtl | regEncodeVendorHw | regEncodeHwRev | regEncodeFwRev
  | regEncodeCompat | regEncodeTestCtl =>
    exact .inl (onlyReports_of_finish (encodeResult_neverReassembly _ _) h ht)
  | rawParse => exact .inl (onlyReports_of_finish (rawParseResult_neverReassembly _ _) h ht)
  | fbParse => exact .inl (onlyReports_of_finish (fbParseResult_neverReassembly _ _) h ht)
  | wrParse => exact .inl (onlyReports_of_finish (wrParseResult_neverReassembly _ _) h ht)
  | errpParse => exact .inl (onlyReports_of_finish (errpParseResult_neverReassembly _ _) h ht)
  | rawBuild => exact .inl (onlyReports_of_finish (rawBuildBytes_neverReassembly _ _ _).builtResult h ht)
  | fbBuild => exact .inl (onlyReports_of_finish (fbBuildBytes_neverReassembly _ _ _).builtResult h ht)
  | wrBuild => exact .inl (onlyReports_of_finish (wrBuildBytes_neverReassembly _ _ _).builtResult h ht)
  | errpBuild => exact .inl (onlyReports_of_finish (errpBuildBytes_neverReassembly _ _).builtResult h ht)

/-- Settles O9: an error only reports, or it is a micro-frame's and faults the instance (`exec_err_cases`). -/
theorem errorsWriteNothingButTheFault : Obligations.ErrorsWriteNothingButTheFault := by
  intro i s t e h ht
  obtain ⟨hother, rfl⟩ | ⟨d, fc, data, rfl, r, rfl, hd, rfl⟩ := exec_err_cases h ht
  · exact ⟨rfl, rfl, fun _ => rfl, fun r hr => absurd hr (hother r)⟩
  · exact ⟨rfl, rfl, fun hother => absurd rfl (hother r), fun _ _ => ⟨d, fc, data, rfl, hd, rfl⟩⟩

end Sys2Proof.Machine

/-! PROOFS of 70_reset_and_hazards.md: a step with nothing to answer, and runs that answer the whole queue. -/

namespace Sys2Proof.Machine

/-- Settles O5: the other ways a step can go (`step_cases`) take a request off the queue. -/
theorem stepWithoutRequestChangesNothing : Obligations.StepWithoutRequestChangesNothing := by
  intro s hp
  obtain ⟨-, h⟩ | ⟨r, rest, hcons, -⟩ := step_cases s
  · exact h
  · cases hp.symm.trans hcons

/-- A run of one step for each request of the queue `q`, which is all that is pending, ends with the queue empty and
one response more for each. -/
theorem run_answers_queue {q : List Request} {s : State} (hp : s.pending = q) :
    ∃ (t : State) (rs : List Response), core.run q.length s = .next t ∧ t.pending = [] ∧
      t.responses = s.responses ++ rs ∧ rs.length = q.length := by
  induction q generalizing s with
  | nil => exact ⟨s, [], run_zero s, hp, (List.append_nil _).symm, rfl⟩
  | cons r rest ih =>
    obtain ⟨u, resp, hstep, hresp, hrest, -, -⟩ := everyRequestGetsOneResponse s r rest hp
    obtain ⟨t, rs, hrun, hempty, hresps, hlen⟩ := ih hrest
    refine ⟨t, resp :: rs, (run_succ hstep rest.length).trans hrun, hempty, ?_, congrArg Nat.succ hlen⟩
    rw [hresps, hresp, List.append_assoc, List.singleton_append]

/-- Settles O7, by induction on the queue (`run_answers_queue`): each step answers its oldest request (O6). -/
theorem runsAnswerEveryRequest : Obligations.RunsAnswerEveryRequest := fun _ => run_answers_queue rfl

end Sys2Proof.Machine

/-! PROOFS of 40_register_codec.md: the kinds of sections 2 and 3 whose layouts the spec took from general knowledge. -/

namespace Sys2Proof.Machine

/-! ## REG.ENCODE of a kind of several fields -/

/-- The check of a field that accepts every value fitting its width. -/
theorem checkedResponse_cons_le {cfg : Config} {f : RegField} {n m : Nat} {ok r : Response}
    {es : List (RegField × Nat)} (h : restricted f = false) (hm : 2 ^ fieldWidth f = m + 1)
    (hr : checkedResponse cfg ok es = r) :
    checkedResponse cfg ok ((f, n) :: es) = if ¬n ≤ m then .err (.fieldOutOfRange (.reg f)) else r :=
  checkedResponse_cons (regFieldOk_iff_le h hm) hr

/-- The check of an enumerated field whose MAX is a parameter: the value is below the MAX and fits the width. -/
theorem regFieldOk_iff_lt_and_le {cfg : Config} {f : RegField} {e : Enumeration} {n m b : Nat}
    (he : regEnum f = some e) (hmax : enumMax cfg e = b) (hm : 2 ^ fieldWidth f = m + 1) :
    regFieldOk cfg (f, n) = true ↔ n < b ∧ n ≤ m := by
  rw [regFieldOk_iff, inEncodeRange_enum cfg n he hmax, hm, Nat.lt_succ_iff, and_comm]

/-- The checks of an Error view, in bit order. -/
theorem checkedResponse_errorEntries (cfg : Config) (ok : Response) (v : ErrorView) :
    checkedResponse cfg ok (errorEntries v) =
      if ¬v.invalidFw ≤ 1 then .err (.fieldOutOfRange (.reg .invalidFw))
      else if ¬v.invalidData ≤ 1 then .err (.fieldOutOfRange (.reg .invalidData))
      else if ¬v.selfTestFailed ≤ 1 then .err (.fieldOutOfRange (.reg .selfTestFailed))
      else if ¬v.fatalError ≤ 1 then .err (.fieldOutOfRange (.reg .fatalError))
      else if ¬v.vendorErrors ≤ 65535 then .err (.fieldOutOfRange (.reg .vendorErrors))
      else ok :=
  checkedResponse_cons_le rfl rfl <| checkedResponse_cons_le rfl rfl <| checkedResponse_cons_le rfl rfl <|
    checkedResponse_cons_le rfl rfl <| checkedResponse_cons_le rfl rfl rfl

theorem shiftedSum_errorEntries (v : ErrorView) :
    shiftedSum (errorEntries v) = v.invalidFw + v.invalidData * 2 ^ 1 + v.selfTestFailed * 2 ^ 2 +
      v.fatalError * 2 ^ 15 + v.vendorErrors * 2 ^ 16 := by
  simp only [errorEntries, shiftedSum, fieldLo]
  omega

/-- Settles O18: the five checks of an Error view, then the sum of its shifted values. -/
theorem regEncodeErrorResult : Obligations.RegEncodeErrorResult := fun v s =>
  ⟨rfl, viewOf_error.encode_eq (checkedResponse_errorEntries s.cfg _ v) (shiftedSum_errorEntries v)⟩

/-- Settles O20: both kinds are two fields that fill their widths. -/
theorem regEncodeTwoFieldKindsResult : Obligations.RegEncodeTwoFieldKindsResult := by
  refine ⟨fun v s => ⟨rfl, viewOf_dataSize.encode_eq (checkedResponse_cons_le rfl rfl <|
      checkedResponse_cons_le rfl rfl rfl) ?dataSize⟩,
    fun v s => ⟨rfl, viewOf_vendorHw.encode_eq (checkedResponse_cons_le rfl rfl <|
      checkedResponse_cons_le rfl rfl rfl) ?vendorHw⟩⟩
  case dataSize =>
    simp only [dataSizeEntries, shiftedSum, fieldLo]
    omega
  case vendorHw =>
    simp only [vendorHwEntries, shiftedSum, fieldLo]
    omega

/-- Settles O21: nine fields that fill their widths, with reserved bits between them. -/
theorem regEncodeCapsResult : Obligations.RegEncodeCapsResult := by
  refine fun v s => ⟨rfl, viewOf_caps.encode_eq (checkedResponse_cons_le rfl rfl <|
      checkedResponse_cons_le rfl rfl <| checkedResponse_cons_le rfl rfl <| checkedResponse_cons_le rfl rfl <|
      checkedResponse_cons_le rfl rfl <| checkedResponse_cons_le rfl rfl <| checkedResponse_cons_le rfl rfl <|
      checkedResponse_cons_le rfl rfl <| checkedResponse_cons_le rfl rfl rfl) ?_⟩
  simp only [capsEntries, shiftedSum, fieldLo]
  omega

/-- Settles O22: the two selectors answer to their count, a parameter, and to their width. -/
theorem regEncodeConfigResult : Obligations.RegEncodeConfigResult := by
  refine fun v s => ⟨rfl, viewOf_config.encode_eq (checkedResponse_cons_le rfl rfl <|
      checkedResponse_cons_le rfl rfl <|
      checkedResponse_cons (regFieldOk_iff_lt_and_le rfl rfl rfl) <|
      checkedResponse_cons (regFieldOk_iff_lt_and_le rfl rfl rfl) rfl) ?_⟩
  simp only [configEntries, shiftedSum, fieldLo]
  omega

/-! ## REG.DECODE with byte counts -/

/-- Settles O12: no field of these kinds is enumerated, and the byte counts are functions of the view. -/
theorem regDecodeDataSizeAndCapsResult : Obligations.RegDecodeDataSizeAndCapsResult :=
  ⟨fun _ _ => ⟨rfl, viewOf_dataSize.decode_eq
      (fun v u => .dataSize v u (unitBytes v.maxFrameSize) (unitBytes v.maxFeedbackSize)) rfl⟩,
    fun _ _ => ⟨rfl, viewOf_caps.decode_eq (fun v u => .caps v u (unitBytes v.bulkDataMaxWrite)) rfl⟩⟩

end Sys2Proof.Machine

/-! PROOFS of 42_envelopes.md, section 5: what the parse and the build of an Error payload answer. -/

namespace Sys2Proof.Machine

/-! ## ERRP.PARSE (R130) -/

theorem memReadWord_eq_le32 (B : Bytes) (i : Nat) : memReadWord B i = BitVec.ofNat 32 (le32 B i) := by
  rw [memReadWord, memRead_four]

theorem toNat_memReadWord (B : Bytes) (i : Nat) : (memReadWord B i).toNat = le32 B i := by
  rw [memReadWord_eq_le32, BitVec.toNat_ofNat, Nat.mod_eq_of_lt (le32_lt B i)]

/-- The Error view of a word as R84 slices it; the vendor errors are the word's upper half. -/
theorem decodeError_eq (w : Word) : decodeError w =
    { invalidFw := w.toNat % 2, invalidData := w.toNat / 2 % 2, selfTestFailed := w.toNat / 4 % 2,
      fatalError := w.toNat / 2 ^ 15 % 2, vendorErrors := w.toNat / 2 ^ 16 } := by
  have hfw : slice w .invalidFw = w.toNat % 2 := congrArg (· % 2) (Nat.div_one _)
  have hvendor : slice w .vendorErrors = w.toNat / 2 ^ 16 :=
    Nat.mod_eq_of_lt (Nat.div_lt_of_lt_mul w.isLt)
  rw [decodeError, readField_eq_slice, errorOf, hfw, hvendor]
  rfl

/-- The fields of an Error payload at the places R71 gives them. -/
theorem errpParsedOf_eq (cfg : Config) (B : Bytes) : errpParsedOf cfg B =
    { errorType := (B.getD 0 0).toNat, reserved := (B.drop 1).take 3, fwWord := BitVec.ofNat 32 (le32 B 4),
      invalidFrameCharacteristics := le32 B 4 % 2, microframeIndexInvalid := le32 B 4 / 2 % 2,
      errRaw := BitVec.ofNat 32 (le32 B 8),
      err :=
        { invalidFw := le32 B 8 % 2, invalidData := le32 B 8 / 2 % 2, selfTestFailed := le32 B 8 / 4 % 2,
          fatalError := le32 B 8 / 2 ^ 15 % 2, vendorErrors := le32 B 8 / 2 ^ 16 } } := by
  have htype : readHdr cfg B .errorType = (B.getD 0 0).toNat := readHdr_one B rfl rfl
  simp only [errpParsedOf, hdrOffset, errRegOffset, htype, bits_eq, decodeError_eq, toNat_memReadWord,
    pow_zero, Nat.div_one]
  rw [memReadWord_eq_le32, memReadWord_eq_le32]
  rfl

/-- Settles O44 (the bare name is the model's): the two length checks, then the fields at their places. -/
theorem Envelope.errpParseResult : Obligations.ErrpParseResult := by
  refine fun B s => ⟨rfl, (finish_eq s _).trans (congrArg (Host.Outcome.next <| s.respond ·) ?_)⟩
  rw [Machine.errpParseResult, errpParsedOf_eq, apply_ite responseTo, apply_ite responseTo]
  rfl

/-! ## ERRP.BUILD (R131) -/

/-- Everything the build of an Error payload can do: the header's checks, the Error view's, then the twelve bytes. -/
theorem errpBuildBytes_eq (cfg : Config) (h : ErrpHeader) : errpBuildBytes cfg h =
    if 255 < h.errorType then .error (.fieldOutOfRange (.hdr .errorType))
    else if 1 < h.invalidFrameCharacteristics then .error (.fieldOutOfRange (.hdr .invalidFrameCharacteristics))
    else if 1 < h.microframeIndexInvalid then .error (.fieldOutOfRange (.hdr .microframeIndexInvalid))
    else (encodeFields cfg (errorEntries h.err)).map
      (errpBytesOf h.errorType (h.invalidFrameCharacteristics ||| h.microframeIndexInvalid <<< 1)) := by
  unfold errpBuildBytes
  cases encodeFields cfg (errorEntries h.err) with
  | error => rfl
  | ok w => rw [Except.map, errpBytesOf, ← errp_bytes]; rfl

/-- A build's check that a value is at most `m`; what follows the check may use that it passed. -/
theorem responseTo_ite_lt {m n : Nat} {e : Err} {x : Except Err Bytes} {r : Response}
    (h : n ≤ m → responseTo (builtResult x) = r) :
    responseTo (builtResult (if m < n then .error e else x)) = if ¬n ≤ m then .err e else r := by
  by_cases hn : n ≤ m
  · rw [if_neg (Nat.not_lt.mpr hn), if_neg (not_not.mpr hn), h hn]
  · rw [if_pos (Nat.lt_of_not_le hn), if_pos hn]
    rfl

/-- A build from an encoded view answers the view's checks, then the bytes made from its word. -/
theorem responseTo_map_encodeFields (cfg : Config) (es : List (RegField × Nat)) (bytes : Word → Bytes) :
    responseTo (builtResult ((encodeFields cfg es).map bytes)) =
      checkedResponse cfg (.ok (.built (bytes (packFields es)))) es := by
  unfold encodeFields
  generalize packFields es = w
  induction es with
  | nil => rfl
  | cons e es ih =>
    rw [checkedResponse, ← ih, List.find?_cons]
    cases regFieldOk cfg e <;> rfl

/-- The two flags as bits 0 and 1 of a word. -/
theorem flags_or_eq_add {a : Nat} (b : Nat) (ha : a ≤ 1) : a ||| b <<< 1 = a + 2 * b := by
  rw [Nat.or_comm, ← Nat.shiftLeft_add_eq_or_of_lt (show a < 2 ^ 1 by omega), Nat.shiftLeft_eq]
  omega

/-- The bytes of an Error payload whose Error view is accepted. -/
theorem errpBytesOf_packFields {cfg : Config} {v : ErrorView} (t flags : Nat)
    (hok : ∀ e ∈ errorEntries v, regFieldOk cfg e = true) :
    errpBytesOf t flags (packFields (errorEntries v)) =
      BitVec.ofNat 8 t :: List.replicate 3 0 ++ bytesLe32 flags ++ bytesLe32 (v.invalidFw + v.invalidData * 2 +
        v.selfTestFailed * 4 + v.fatalError * 2 ^ 15 + v.vendorErrors * 2 ^ 16) := by
  rw [errpBytesOf, toNat_packFields _ (fun e he => fits_of_regFieldOk (hok e he)) (viewOf_error.sorted v),
    ← shiftedSum_eq, shiftedSum_errorEntries]
  rfl

/-- Settles O45: the three header checks, the Error view's, then the bytes, in which every value fits its place. -/
theorem errpBuildResult : Obligations.ErrpBuildResult := by
  refine fun h s => ⟨rfl, (finish_eq s _).trans (congrArg (Host.Outcome.next <| s.respond ·) ?_)⟩
  rw [errpBuildBytes_eq]
  refine responseTo_ite_lt fun _ => responseTo_ite_lt fun hinvalid => responseTo_ite_lt fun _ => ?_
  rw [responseTo_map_encodeFields, flags_or_eq_add _ hinvalid, ← checkedResponse_errorEntries s.cfg]
  exact checkedResponse_congr fun hok => congrArg (Response.ok <| .built ·) (errpBytesOf_packFields _ _ hok)

end Sys2Proof.Machine
